-- ==== Sys2Proof/Word.lean ====
section
/-! DEFINITION. The one word type of the machine: every register value, frame byte and register index is
one byte (spec 00_scope.md R6, R33). -/

namespace Sys2Proof

/-- A byte, an unsigned 8-bit value 0..255 with bit 7 the most significant (R32).
It is the width of a register (R11), of a register index (R62) and of a frame byte (R61). -/
abbrev Byte := BitVec 8

end Sys2Proof
end

