-- ==== Sys2Proof/Syntax.lean ====
section
/-! DEFINITION. The instructions: the four inbound frame classes and the two lifecycle events, one constructor per row of
spec/opcode_table.json (R2, R64, R70). The four frame classes are the four `Transaction` variants of R28. -/

namespace Sys2Proof

/-- An instruction of the block (R2): a `Transaction` (R28) or a lifecycle event (R70). -/
inductive Instr where
  /-- `IDLE`, format F0, the Transaction `Idle` (R103). -/
  | idle
  /-- `RD idx`, format F1, the Transaction `ReadRequest(register_index)` (R104). -/
  | rd (index : Byte)
  /-- `WR idx, val`, format F2, the Transaction `WriteRequest(register_index, value)` (R105). -/
  | wr (index value : Byte)
  /-- `BAD b0, b1, b2, ...`, format FX, the Transaction `Malformed(n)`: its one operand is the byte count, the bytes
  are not operands (R106). -/
  | bad (n : Nat)
  /-- `START`, the startup event; not a frame, it has no encoding (R131, R70). -/
  | start
  /-- `STOP`, the shutdown signal seen at an iteration boundary; not a frame, it has no encoding (R134, R70). -/
  | stop
  deriving DecidableEq, Repr

end Sys2Proof
end

