-- ==== Sys2Proof/WellFormed.lean ====
section
/-! DEFINITION. Which instructions are well formed: every one but a `BAD` of fewer than three bytes (R64, R65). -/

namespace Sys2Proof

/-- Class `BAD` is "any n >= 3" (R64). Every index and value 0..255 is well formed whatever N is (R61, R93). -/
def Instr.wellFormed : Instr → Bool
  | .idle => true
  | .rd _ => true
  | .wr _ _ => true
  | .bad n => decide (3 ≤ n)
  | .start => true
  | .stop => true

/-- The instructions that are frames: a poll delivers them. `START` and `STOP` are events without an encoding (R70). -/
def Instr.isFrame : Instr → Bool
  | .idle => true
  | .rd _ => true
  | .wr _ _ => true
  | .bad _ => true
  | .start => false
  | .stop => false

end Sys2Proof
end

