-- ==== Sys2Proof/Decode.lean ====
section
/-! DEFINITION. The TransactionDecoder (41_transaction_decoder.md R90 to R94) and the encoder, from the format table R61. -/

namespace Sys2Proof

/-- Why a pair (n, buf) is no frame at all: the count is 1 or 2 and the buffer holds fewer bytes than the class reads (R90).
A poll answer never is such a pair, since `len(buf) = n` (R166). -/
inductive DecodeError where
  | shortBuffer (count held : Nat)
  deriving DecidableEq, Repr

/-- `Decode(n, buf)` (R90): the count alone selects the class; no range check is made (R93).
n = 0 and n >= 3 read no byte of the buffer, n = 1 reads byte 0, n = 2 reads bytes 0 and 1. -/
def decode (n : Nat) (buf : List Byte) : Except DecodeError Instr :=
  match n with
  | 0 => .ok .idle
  | 1 =>
    match buf with
    | b0 :: _ => .ok (.rd b0)
    | [] => .error (.shortBuffer 1 0)
  | 2 =>
    match buf with
    | b0 :: b1 :: _ => .ok (.wr b0 b1)
    | short => .error (.shortBuffer 2 short.length)
  | k + 3 => .ok (.bad (k + 3))

/-- The frame of an instruction, written from the format table R61; byte 0 first (R43).
`BAD` keeps only its byte count, so its frame here is the one of n zero bytes (log entry 5).
`START` and `STOP` have no encoding (R70). -/
def encode : Instr → Option (List Byte)
  | .idle => some []
  | .rd index => some [index]
  | .wr index value => some [index, value]
  | .bad n => some (List.replicate n 0#8)
  | .start => none
  | .stop => none

/-- The bytes of a number given as a table word: byte k of the frame, byte 0 first (R61), is bits 8k+7..8k of the number.
DESIGN CHOICE: the spec writes frames as bit strings with byte 0 first and never as one number, so this packing, byte 0 in
bits 7..0, is the model's choice (log entry 18). -/
def tableBytes (nbits w : Nat) : List Byte :=
  (List.range (nbits / 8)).map fun k => BitVec.ofNat 8 (w >>> (8 * k))

/-- What the decoder reads from a frame of nbits/8 bytes. The length of a frame is its opcode (R60), so no byte is
appended to it. -/
def decodeTableWord (nbits w : Nat) : Option Instr :=
  match decode (tableBytes nbits w).length (tableBytes nbits w) with
  | .ok i => some i
  | .error _ => none

end Sys2Proof
end

