-- ==== Sys2Proof/Config.lean ====
section
/-! DEFINITION. What is fixed for one instance of the machine (its construction parameters, R5 to R9, R21), and the
free values: what the environment answers, which the spec leaves to the environment (R25, R26, R166). -/

namespace Sys2Proof

/-- The answer of a port call (R26): success, or a non-success status whose code is opaque and never inspected
(log entry 17). -/
inductive Status where
  | ok
  | err (code : Nat)
  deriving DecidableEq, Repr, Inhabited

/-- What one `PortPoll()` answers (R25): a status and the received bytes.
The received byte count is `buf.length`: the environment must make `len(buf) = n` (R166), so the count is not a
second, independent number here (log entry 12). -/
structure PollAnswer where
  st  : Status
  buf : List Byte
  deriving DecidableEq, Repr, Inhabited

/-- The "received_byte_count" n of a poll answer (R25, R60). -/
def PollAnswer.count (a : PollAnswer) : Nat := a.buf.length

/-- `EXIT_FAIL` (R9, R19): any non-zero integer, so held as a sign and a magnitude less one. -/
structure ExitFail where
  negative      : Bool
  magnitudePred : Nat
  deriving DecidableEq, Repr, Inhabited

/-- The integer an `ExitFail` stands for; it is never 0 and every non-zero integer is one (R9). -/
def ExitFail.toInt (e : ExitFail) : Int :=
  if e.negative then Int.negSucc e.magnitudePred else Int.ofNat (e.magnitudePred + 1)

/-- The construction-time constants of one controller instance (R21): read-only for the life of the instance. -/
structure Params where
  /-- `N`, the number of registers in the bank (R5). -/
  n         : Nat
  /-- `SLAVE_ADDR`, passed unchanged to both `setEnabled` calls, inspected by no rule (R7). -/
  slaveAddr : Nat
  /-- `BACKOFF`, the length of the idle sleep, read by no rule (R8). -/
  backoff   : Nat
  /-- `LOG_EN`, which gates the external logger only and is read by no rule (R9). -/
  logEn     : Bool
  /-- `EXIT_FAIL`, the process exit status after a failed startup enable (R9, R132). -/
  exitFail  : ExitFail
  deriving DecidableEq, Repr, Inhabited

/-- This spec admits 1 <= N <= 255; N = 0 and N >= 256 are refused (R5). -/
def Params.legal (p : Params) : Bool := decide (1 ≤ p.n) && decide (p.n ≤ 255)

/-- Free value: the spec gives `SLAVE_ADDR` no value (R7; log entry 2). -/
opaque Config.slaveAddr : Nat
/-- Free value: `BACKOFF` is OPEN (R8; log entry 2). -/
opaque Config.backoff : Nat
/-- Free value: `LOG_EN` is OPEN (R9; log entry 2). -/
opaque Config.logEn : Bool
/-- Free value: `EXIT_FAIL` is OPEN, any non-zero value (R9; log entry 2). -/
opaque Config.exitFail : ExitFail

/-- The default construction: N = 8 (R5), the OPEN parameters free. -/
def Config.defaultParams : Params :=
  { n := 8, slaveAddr := Config.slaveAddr, backoff := Config.backoff, logEn := Config.logEn,
    exitFail := Config.exitFail }

/-- Free value: the level of the shutdown signal at the k-th sampling point of a source of answers (R24 (b); log entry 3). -/
opaque Config.freeShutdown : Nat → Nat → Bool
/-- Free value: a source's k-th answer of `PortPoll()`, any well-typed answer (R25; log entry 3). -/
opaque Config.freePoll : Nat → Nat → PollAnswer
/-- Free value: a source's k-th answer of `PortTransmit(bs)` (R25; log entry 3). -/
opaque Config.freeTransmit : Nat → Nat → Status
/-- Free value: a source's k-th answer of `PortSetEnabled(b, a)` (R25; log entry 3). -/
opaque Config.freeSetEnabled : Nat → Nat → Status

end Sys2Proof
end

