-- ==== Sys2Proof/Machine/State.lean ====
section
/-! DEFINITION. The state of the machine as plain data: the five architectural items of R10, the instance's parameters
(R21), the event trace (R27), and the environment's answers (R25), with the state right after reset (R30). -/

namespace Sys2Proof.Machine

open Sys2Proof

/-- The state of the SlaveController (R13): eight values, an enumeration and not its numbers (R14). -/
inductive Ctl where
  | initializing
  | polling
  | servicingRead
  | servicingWrite
  | idling
  | rejectingMalformed
  /-- Terminal, after the shutdown signal (R135). -/
  | closing
  /-- Terminal, after a failed startup enable (R132). -/
  | failed
  deriving DecidableEq, Repr

/-- Which accessor of the bank an `OutOfRange` names (R150). -/
inductive AccessOp where
  | read
  | write
  deriving DecidableEq, Repr

/-- Which use of the port a `TransferFailure` names (R150). -/
inductive PortOp where
  | enable
  | poll
  | transmit
  | disable
  deriving DecidableEq, Repr

/-- The error taxonomy (R150): exactly three members, each with the information its report records. -/
inductive SlaveError where
  | outOfRange (op : AccessOp) (index : Byte)
  | malformedFrame (n : Nat)
  | transferFailure (op : PortOp) (st : Status)
  deriving DecidableEq, Repr

/-- An output of the core (R27). -/
inductive Event where
  | callSetEnabled (b : Bool) (address : Nat) (st : Status)
  | callPoll (st : Status) (n : Nat) (buf : List Byte)
  | callTransmit (bs : List Byte) (st : Status)
  | report (e : SlaveError)
  | snapshot (s : List (Nat × Byte))
  | backoff
  deriving DecidableEq, Repr

/-- The RegisterBank `x` as an address space (R40): (address, byte) pairs, addresses strictly rising, no pair equal to
what an unlisted address reads as (`resetByte`, the reset contents i+1 of R11; log entry 11). -/
abbrev Memory := List Host.Cell

/-- One input of the core as the environment supplies it: the answers already laid down, in order, how many were taken, and
the number of the source that answers where none is laid down. That answer is a free value of Config, applied to `source`
and `taken` (log entry 3): channels of different sources are unrelated, channels of one source at one count answer alike
(the model's choice, log entry 16). -/
structure Channel (α : Type) where
  queued : List α
  taken  : Nat
  source : Nat
  deriving DecidableEq, Repr

/-- A channel of a source on which nothing is laid down and nothing was taken. -/
def Channel.freshFrom (source : Nat) (α : Type) : Channel α := ⟨[], 0, source⟩

/-- The environment (R25, R166): the shutdown level at each sampling point and the answers to the three port operations. -/
structure Env where
  shutdown   : Channel Bool
  poll       : Channel PollAnswer
  transmit   : Channel Status
  setEnabled : Channel Status
  deriving DecidableEq, Repr

/-- An environment of which nothing is known: every answer is a free value of its source. -/
def Env.freshFrom (source : Nat) : Env :=
  ⟨.freshFrom source Bool, .freshFrom source PollAnswer, .freshFrom source Status, .freshFrom source Status⟩

/-- The environment of `State.reset`: nothing known, source 0 (log entry 3). -/
def Env.fresh : Env := Env.freshFrom 0

/-- The whole state. `x`, `ctl`, `rx`, `tx`, `fatal` are the architectural state (R10). -/
structure State where
  /-- The RegisterBank (R11). -/
  x      : Memory
  /-- The controller state (R13). -/
  ctl    : Ctl
  /-- The receive buffer of the BusSession (R16). -/
  rx     : List Byte
  /-- The transmit buffer, the one-byte response queue (R17). -/
  tx     : List Byte
  /-- Set when the startup enable failed (R19). -/
  fatal  : Bool
  /-- The construction-time constants of this instance (R21; log entry 1). -/
  params : Params
  /-- The environment's answers (the model's own field; log entry 3). -/
  env    : Env
  /-- The event trace, oldest first; the core never reads it (R27; log entry 4). -/
  trace  : List Event
  deriving DecidableEq, Repr

/-- The state reset gives an instance with parameters p in an environment e (R30, R190). -/
def State.resetIn (p : Params) (e : Env) : State :=
  { x := [], ctl := .initializing, rx := [], tx := [], fatal := false, params := p, env := e, trace := [] }

/-- The machine right after reset: the default construction N = 8 (R5), nothing known of the environment (R192). -/
def State.reset : State := State.resetIn Config.defaultParams Env.fresh

/-- How the machine stops with a fault. -/
inductive Fault where
  /-- Raised by `step` in the terminal state `Failed`, which only a failed startup enable enters: "Exactly one condition
  stops the machine: the failure of the startup enable" (R157, U19 of 93_implementation_defined.md). Safe. -/
  | startupFailed
  deriving DecidableEq, Repr

/-- How the model refuses to give a step a meaning. -/
inductive Refusal where
  /-- Raised by `exec`'s arm of an instruction that has no meaning yet; no arm raises it now. Safe. -/
  | notModelled (mnemonic : String)
  /-- Raised by every meaning and by `step` where N is not in 1..255: R5 refuses such a construction (log entry 10). Safe. -/
  | illegalParameters
  /-- Raised by a meaning run in a controller state other than the one its rule requires (`Polling` for a frame and for
  `STOP`, `Initializing` for `START`; R100, R131, R134): the event does not happen there (log entry 9). Safe. -/
  | eventNotPossible
  /-- Raised by `step` in one of the four service states, which are "never observed between iterations" (R15; log entry
  9). Safe. -/
  | midIteration
  /-- Raised by `step` where the decoder refuses a poll answer; no poll answer is refused, since `len(buf) = n`
  (R166; log entry 12). Safe. -/
  | shortBuffer
  deriving DecidableEq, Repr

end Sys2Proof.Machine
end

