-- ==== Sys2Proof/Machine/Flags.lean ====
section
/-! DEFINITION. Flags and codes. The block has no condition codes (R20); its one flag-like bit is `fatal` (R19). Here are
that bit's setting and the numbers the spec gives controller states (R14) and errors (R150). -/

namespace Sys2Proof.Machine

/-- `fatal <- 1` (R132). No operation clears the bit (R19). -/
def setFatal (s : State) : State := { s with fatal := true }

/-- The 3-bit encoding of the controller state (R14); no rule reads it. -/
def ctlCode : Ctl → BitVec 3
  | .initializing => 0#3
  | .polling => 1#3
  | .servicingRead => 2#3
  | .servicingWrite => 3#3
  | .idling => 4#3
  | .rejectingMalformed => 5#3
  | .closing => 6#3
  | .failed => 7#3

/-- The error codes (R150); "Code 0 means no error". No rule reads them. -/
def errorCode : Option SlaveError → Nat
  | none => 0
  | some (.outOfRange _ _) => 1
  | some (.malformedFrame _) => 2
  | some (.transferFailure _ _) => 3

end Sys2Proof.Machine
end

