-- ==== Sys2Proof/Machine/Operands.lean ====
section
/-! DEFINITION. The operand forms: how a frame's index byte names a register (R62), and the mode argument of the port's
enable call (R22). -/

namespace Sys2Proof.Machine

open Sys2Proof

/-- The register an index byte names: its unsigned value 0..255, not scaled, shifted, extended or masked (R62). -/
def registerIndex (index : Byte) : Nat := index.toNat

/-- The range check `index < N`, an unsigned comparison (R62, R40). -/
def inRange (n : Nat) (index : Byte) : Bool := decide (registerIndex index < n)

/-- The modes the port's enable argument selects (R22). -/
inductive PortMode where
  | enabledAsI2CSlave
  | disabled
  deriving DecidableEq, Repr

/-- "`true` selects mode `EnabledAsI2CSlave`, `false` selects `Disabled`" (R22). -/
def portMode (b : Bool) : PortMode := if b then .enabledAsI2CSlave else .disabled

/-- The `op` a failed `PortSetEnabled(b, _)` is reported with (R150, R132, R134). -/
def setEnabledOp (b : Bool) : PortOp :=
  match portMode b with
  | .enabledAsI2CSlave => .enable
  | .disabled => .disable

end Sys2Proof.Machine
end

