-- ==== Sys2Proof/Machine/Ops.lean ====
section
/-! DEFINITION. The named operations: the bank as memory, the three accessors of the RegisterBank (40_register_bank.md),
the port calls (R25), the trace (R27), raising an error (R159) and the end of an iteration, which is the return from it
(R107, R161). -/

namespace Sys2Proof.Machine

open Sys2Proof

/-! ### The bank as memory -/

/-- What an address nothing has written reads as: "register i initialized to i+1" (R11). -/
def resetByte (a : Nat) : Byte := BitVec.ofNat 8 (a + 1)

/-- The byte listed for an address, if one is. -/
def Memory.lookup (a : Nat) : Memory → Option Byte
  | [] => none
  | (b, v) :: m => if a = b then some v else Memory.lookup a m

/-- The byte at an address (R11): the listed byte, else the reset value. -/
def Memory.read (m : Memory) (a : Nat) : Byte := (Memory.lookup a m).getD (resetByte a)

/-- Lists a byte at its place in the rising order of addresses, in place of one already listed there. -/
def Memory.insert (a : Nat) (v : Byte) : Memory → Memory
  | [] => [(a, v)]
  | (b, w) :: m =>
    if a < b then (a, v) :: (b, w) :: m
    else if a = b then (a, v) :: m
    else (b, w) :: Memory.insert a v m

/-- Unlists an address. -/
def Memory.erase (a : Nat) : Memory → Memory
  | [] => []
  | (b, w) :: m => if a = b then Memory.erase a m else (b, w) :: Memory.erase a m

/-- Stores a byte at an address (R81) and keeps the canonical form: writing the reset value unlists the address. -/
def Memory.write (m : Memory) (a : Nat) (v : Byte) : Memory :=
  if v = resetByte a then Memory.erase a m else Memory.insert a v m

/-- The canonical form of a bank of n registers: addresses strictly rising, each below n, no byte equal to its reset
value. Two banks in this form that read alike are equal data. -/
abbrev Memory.wf (n : Nat) (m : Memory) : Prop :=
  m.Pairwise (fun c d => c.1 < d.1) ∧ ∀ c ∈ m, c.1 < n ∧ c.2 ≠ resetByte c.1

/-! ### Plain updates -/

/-- `emit e`: an event appended to the trace (R27, R33). -/
def emit (e : Event) (s : State) : State := { s with trace := s.trace ++ [e] }

/-- `ctl <- c` (R33). -/
def setCtl (c : Ctl) (s : State) : State := { s with ctl := c }

/-- `rx <- buf` (R33, R100). -/
def receive (buf : List Byte) (s : State) : State := { s with rx := buf }

/-- `tx <- [v]`: "stage exactly one byte as the outgoing response" (R104). -/
def stage (v : Byte) (s : State) : State := { s with tx := [v] }

/-- `tx <- []`: "clear the pending transmit buffer" (R103). -/
def clearTx (s : State) : State := { s with tx := [] }

/-- `rx <- []; tx <- []`: "clear both receive and transmit buffers" (R104, R107). -/
def clearBuffers (s : State) : State := { s with rx := [], tx := [] }

/-! ### The accessors of the RegisterBank -/

/-- `MemRead(index, 1)` (R80): fails with `OutOfRange` if `index >= N`, else the stored value; no side effects. -/
def memRead (index : Byte) (s : State) : Except SlaveError Byte :=
  if inRange s.params.n index then .ok (Memory.read s.x (registerIndex index))
  else .error (.outOfRange .read index)

/-- `MemWrite(index, 1, value)` (R81): fails with `OutOfRange` under the same condition, else stores the value. -/
def memWrite (index value : Byte) (s : State) : Except SlaveError State :=
  if inRange s.params.n index then .ok { s with x := Memory.write s.x (registerIndex index) value }
  else .error (.outOfRange .write index)

/-- `snapshot()` (R82): all N pairs (index, value) in ascending index. -/
def snapshot (s : State) : List (Nat × Byte) :=
  (List.range s.params.n).map fun a => (a, Memory.read s.x a)

/-! ### The environment's answers and the port calls -/

/-- The next answer of a channel: the first one laid down, else a free value (log entry 3). The free value is the channel's
source's and of the count taken, so two channels answer alike by this definition only where both numbers agree; that
side-by-side instances are kept apart by their sources is the model's choice (log entry 16). -/
def Channel.now {α : Type} (free : Nat → Nat → α) (c : Channel α) : α :=
  match c.queued with
  | a :: _ => a
  | [] => free c.source c.taken

/-- The channel once its next answer is taken; its source stays. -/
def Channel.advance {α : Type} (c : Channel α) : Channel α :=
  { c with queued := c.queued.tail, taken := c.taken + 1 }

/-- The level of the shutdown signal at this sampling point (R24 (b), R133). -/
def shutdownLevel (s : State) : Bool := s.env.shutdown.now Config.freeShutdown

/-- The state once the shutdown signal is sampled; the core does not latch it (R24 (b)). -/
def sampled (s : State) : State := { s with env := { s.env with shutdown := s.env.shutdown.advance } }

/-- What `PortPoll()` answers (R25). -/
def pollAnswer (s : State) : PollAnswer := s.env.poll.now Config.freePoll

/-- The state once `PortPoll()` is called: the event `CallPoll(st, n, buf)` records the answer (R101). -/
def polled (s : State) : State :=
  emit (.callPoll (pollAnswer s).st (pollAnswer s).count (pollAnswer s).buf)
    { s with env := { s.env with poll := s.env.poll.advance } }

/-- What `PortTransmit(tx)` answers (R25). -/
def transmitAnswer (s : State) : Status := s.env.transmit.now Config.freeTransmit

/-- The state once `PortTransmit(tx)` is called: the event `CallTransmit(tx, st)` (R104, R27). -/
def transmitted (s : State) : State :=
  emit (.callTransmit s.tx (transmitAnswer s)) { s with env := { s.env with transmit := s.env.transmit.advance } }

/-- What `PortSetEnabled(b, SLAVE_ADDR)` answers (R25). -/
def setEnabledAnswer (s : State) : Status := s.env.setEnabled.now Config.freeSetEnabled

/-- The state once `PortSetEnabled(b, SLAVE_ADDR)` is called: the event `CallSetEnabled(b, SLAVE_ADDR, st)`
(R131, R134). -/
def enableCalled (b : Bool) (s : State) : State :=
  emit (.callSetEnabled b s.params.slaveAddr (setEnabledAnswer s))
    { s with env := { s.env with setEnabled := s.env.setEnabled.advance } }

/-! ### Errors: entry and return -/

/-- The controller state an error's entry leaves (R159, R132): `RejectingMalformed` for `OutOfRange` and
`MalformedFrame`, `Failed` for a failed startup enable, the state as it stands for the other transfer failures. -/
def errorCtl : SlaveError → Ctl → Ctl
  | .outOfRange _ _, _ => .rejectingMalformed
  | .malformedFrame _, _ => .rejectingMalformed
  | .transferFailure .enable _, _ => .failed
  | .transferFailure .poll _, c => c
  | .transferFailure .transmit _, c => c
  | .transferFailure .disable _, c => c

/-- Raising an error (R33, R159): the controller state of its entry and the event `Report(e)`, and nothing more; a failed
startup enable also sets `fatal` (R132, R150). Nothing is saved and control goes to no handler. -/
def raise (e : SlaveError) (s : State) : State :=
  let entered := emit (.report e) (setCtl (errorCtl e s.ctl) s)
  match e with
  | .transferFailure .enable _ => setFatal entered
  | _ => entered

/-- The end of every iteration that does not close (R107): "There is no return operation: the end of the iteration is the
return" from an error (R161). -/
def endIteration (s : State) : State := setCtl .polling (clearBuffers s)

/-! ### When an event can happen -/

/-- Runs an effect where its rule's requirement holds: a legal construction (R5) and the required controller state
(R100, R131, R134). Elsewhere the event does not happen and the model says so by name. -/
def whenIn (required : Ctl) (effect : State → State) (s : State) : Host.Outcome State Fault Refusal :=
  if s.params.legal = true then
    if s.ctl = required then .next (effect s) else .refused .eventNotPossible
  else .refused .illegalParameters

end Sys2Proof.Machine
end

