-- ==== Sys2Proof/Machine/Frames.lean ====
section
/-! DEFINITION. The meanings of the four frame classes (42_slave_controller.md R103 to R106): what the controller does between
a successful poll and the end of the iteration. -/

namespace Sys2Proof.Machine

open Sys2Proof

/-- `ServiceIdle()` (R103). -/
def serviceIdle (s : State) : State := emit .backoff (clearTx (setCtl .idling s))

/-- `IDLE` (R103). -/
def execIdle (s : State) : Host.Outcome State Fault Refusal := whenIn .polling serviceIdle s

/-- `ServiceRead(idx)` (R104): out of range, the error alone; in range, the register's byte is staged and handed to the
port, both buffers are cleared, then a snapshot, or the report of a failed transmit. -/
def serviceRead (index : Byte) (s : State) : State :=
  match memRead index s with
  | .error e => raise e s
  | .ok v =>
    let staged := stage v (setCtl .servicingRead s)
    let sent := clearBuffers (transmitted staged)
    match transmitAnswer staged with
    | .ok => emit (.snapshot (snapshot sent)) sent
    | .err c => raise (.transferFailure .transmit (.err c)) sent

/-- `RD idx` (R104). -/
def execRd (index : Byte) (s : State) : Host.Outcome State Fault Refusal := whenIn .polling (serviceRead index) s

/-- `ServiceWrite(idx, val)` (R105): out of range, the error alone; in range, the register is written and the snapshot is
taken after the write. No port call is made. -/
def serviceWrite (index value : Byte) (s : State) : State :=
  match memWrite index value s with
  | .error e => raise e s
  | .ok written =>
    let serviced := setCtl .servicingWrite written
    emit (.snapshot (snapshot serviced)) serviced

/-- `WR idx, val` (R105). -/
def execWr (index value : Byte) (s : State) : Host.Outcome State Fault Refusal :=
  whenIn .polling (serviceWrite index value) s

/-- `BAD b0, b1, b2, ...` of n bytes (R106): `RejectMalformed(n)`. -/
def execBad (n : Nat) (s : State) : Host.Outcome State Fault Refusal := whenIn .polling (raise (.malformedFrame n)) s

end Sys2Proof.Machine
end

