-- ==== Sys2Proof/Machine/Lifecycle.lean ====
section
/-! DEFINITION. The lifecycle (43_lifecycle.md, 70_reset_and_hazards.md): the meanings of `START` and `STOP`, construction,
reset of a running instance, and the exit status. -/

namespace Sys2Proof.Machine

open Sys2Proof

/-- `Start()` and `StartFailed(st)` (R131, R132). -/
def startUp (s : State) : State :=
  match setEnabledAnswer s with
  | .ok => setCtl .polling (enableCalled true s)
  | .err c => raise (.transferFailure (setEnabledOp true) (.err c)) (enableCalled true s)

/-- `START` (R131, R132): requires `Initializing`. -/
def execStart (s : State) : Host.Outcome State Fault Refusal := whenIn .initializing startUp s

/-- `Close()` (R134). -/
def close (s : State) : State :=
  let called := enableCalled false (setCtl .closing s)
  match setEnabledAnswer s with
  | .ok => clearBuffers called
  | .err c => clearBuffers (raise (.transferFailure (setEnabledOp false) (.err c)) called)

/-- `STOP` (R134): requires `Polling`; it is the event of the shutdown signal being seen, so the signal is not sampled
here. -/
def execStop (s : State) : Host.Outcome State Fault Refusal := whenIn .polling close s

/-- Construction and reset of one instance (R190): N outside 1..255 is refused, with no state defined (R5). -/
def construct (p : Params) (e : Env) : Option State := if p.legal then some (State.resetIn p e) else none

/-- A reset of a running instance, in any state, `Closing` and `Failed` included (R192): every item at its reset value, the
parameters kept (R30), the environment left as it is (R192; log entry 7). -/
def applyReset (s : State) : State := State.resetIn s.params s.env

/-- The exit status the process ends with where the spec gives one: `EXIT_FAIL` after a failed startup enable (R132).
After a normal shutdown the spec gives none (R136), and a machine that still runs has none. -/
def exitStatus (s : State) : Option Int := if s.fatal then some s.params.exitFail.toInt else none

end Sys2Proof.Machine
end

