-- ==== Sys2Proof/Machine/Iteration.lean ====
section
/-! DEFINITION. The poll iteration (42_slave_controller.md R100, R101, R102, R107), around the meaning of the frame. -/

namespace Sys2Proof.Machine

open Sys2Proof

/-- `PollFailed(st)` (R102): the report alone; the count and bytes are ignored. -/
def pollFailed (st : Status) (s : State) : State := raise (.transferFailure .poll st) s

/-- The closing lines of R100 after a frame's meaning (R107). -/
def thenEndIteration : Host.Outcome State Fault Refusal → Host.Outcome State Fault Refusal
  | .next s => .next (endIteration s)
  | .fault f => .fault f
  | .refused r => .refused r

/-- What follows the poll (R100): a failed poll is reported; else `rx` takes the bytes and the decoded frame runs. -/
def afterPoll (a : PollAnswer) (s : State) : Host.Outcome State Fault Refusal :=
  match a.st with
  | .err c => .next (endIteration (pollFailed (.err c) s))
  | .ok =>
    match decode a.count a.buf with
    | .ok i => thenEndIteration (exec i (receive a.buf s))
    | .error _ => .refused .shortBuffer

/-- `Iterate()` (R100): the shutdown signal is sampled once, before the poll (R133). -/
def iterate (s : State) : Host.Outcome State Fault Refusal :=
  if shutdownLevel s then exec .stop (sampled s)
  else afterPoll (pollAnswer (sampled s)) (polled (sampled s))

/-- One step from each controller state: `Start()` after reset (R191), an iteration in `Polling` (R100). `Closing` is
terminal and nothing happens in it (R135; log entry 6); in `Failed` the machine has stopped (R157). -/
def stepFrom (s : State) : Host.Outcome State Fault Refusal :=
  if s.params.legal = true then
    match s.ctl with
    | .initializing => exec .start s
    | .polling => iterate s
    | .servicingRead => .refused .midIteration
    | .servicingWrite => .refused .midIteration
    | .idling => .refused .midIteration
    | .rejectingMalformed => .refused .midIteration
    | .closing => .next s
    | .failed => .fault .startupFailed
  else .refused .illegalParameters

/-- The environment lays down one more frame, to be delivered by the very next poll: the shutdown signal is low at that
iteration's sampling point and the poll answers `Ok` with these bytes. -/
def deliver (frame : List Byte) (e : Env) : Env :=
  { e with
    shutdown := { e.shutdown with queued := false :: e.shutdown.queued }
    poll := { e.poll with queued := ⟨.ok, frame⟩ :: e.poll.queued } }

end Sys2Proof.Machine
end

