-- ==== Sys2Proof/Machine/Step.lean ====
section
/-! DEFINITION. The step of the machine (R100, R131), and how the host places a frame where the next step reads it. -/

namespace Sys2Proof.Machine

open Sys2Proof

/-- One step: the startup step, or one poll iteration (R100, 00_scope.md section 3). -/
def step (s : State) : Host.Outcome State Fault Refusal := stepFrom s

/-- The state in which the next step's poll delivers a table row's frame: the controller is in `Polling` (as after a
successful `START`), the shutdown signal is low, and the poll answers `Ok` with the frame (log entry 8). -/
def State.withFetchWord (s : State) (nbits w : Nat) : State :=
  { s with ctl := .polling, env := deliver (tableBytes nbits w) s.env }

end Sys2Proof.Machine
end

