-- ==== Sys2Proof/Machine/Instances.lean ====
section
/-! DEFINITION. Several instances side by side (43_lifecycle.md R137, 60_exceptions.md R167): each with its own state and
parameters, sharing nothing. Which instance moves is the host's choice, an argument here. -/

namespace Sys2Proof.Machine

open Sys2Proof

/-- The instances, by number. -/
abbrev Instances := List State

/-- Instances constructed side by side, each with its own parameters and an environment of its own source, so that nothing
relates the free answers of one to those of another (R167; log entry 16). Refused if one N is not admitted (R5). -/
def constructInstances (ps : List Params) : Option Instances :=
  if ps.all Params.legal then some (ps.mapIdx fun k p => State.resetIn p (Env.freshFrom k)) else none

/-- One step of instance k; an instance that does not exist cannot move, and the others stay as they are (R137). -/
def stepInstance (k : Nat) (is : Instances) : Option (Host.Outcome Instances Fault Refusal) :=
  match is[k]? with
  | none => none
  | some s =>
    some (match step s with
      | .next t => .next (is.set k t)
      | .fault f => .fault f
      | .refused r => .refused r)

/-- "a reset of one is a reset of that one only" (R137). -/
def resetInstance (k : Nat) (is : Instances) : Instances := is.modify k applyReset

end Sys2Proof.Machine
end

