-- ==== Sys2Proof/Safety.lean ====
section
/-! DEFINITION. What claims are stated in: the invariant of a machine between iterations, the table of an iteration's events
(R109), and what a trace says of the bank (R49). -/

namespace Sys2Proof.Machine

open Sys2Proof

/-- The controller states a machine is in between steps (R15): the service states are "never observed between
iterations". -/
def betweenIterations : Ctl → Bool
  | .initializing => true
  | .polling => true
  | .servicingRead => false
  | .servicingWrite => false
  | .idling => false
  | .rejectingMalformed => false
  | .closing => true
  | .failed => true

/-- The invariant of a machine between steps. -/
structure Inv (s : State) : Prop where
  /-- N is in 1..255 (R5). -/
  legal  : s.params.legal = true
  /-- The bank keeps its canonical form and lists no address of N or more (R83 (d)). -/
  bank   : s.x.wf s.params.n
  /-- The controller is in no service state (R15). -/
  ctl    : betweenIterations s.ctl = true
  /-- The receive buffer is empty (R18). -/
  rx     : s.rx = []
  /-- The transmit buffer is empty (R18). -/
  tx     : s.tx = []
  /-- `fatal` is set exactly in `Failed` (R19, R132). -/
  fatal  : s.fatal = true ↔ s.ctl = .failed

/-- A snapshot of a bank given as a function of the address (R82). -/
def bankTable (n : Nat) (x : Nat → Byte) : List (Nat × Byte) := (List.range n).map fun a => (a, x a)

/-- A bank with one byte replaced. -/
def bankWith (x : Nat → Byte) (a : Nat) (v : Byte) : Nat → Byte := fun b => if b = a then v else x b

/-- The events of one iteration in which no shutdown is seen, row by row as R109 tables them, from the bank before it, the
poll answer and the answer a transmit would get. -/
def iterationEvents (n : Nat) (x : Nat → Byte) (a : PollAnswer) (transmit : Status) : List Event :=
  match a.st, a.buf with
  | .err c, buf => [.callPoll (.err c) buf.length buf, .report (.transferFailure .poll (.err c))]
  | .ok, [] => [.callPoll .ok 0 [], .backoff]
  | .ok, [i] =>
    if i.toNat < n then
      [.callPoll .ok 1 [i], .callTransmit [x i.toNat] transmit,
        match transmit with
        | .ok => .snapshot (bankTable n x)
        | .err c => .report (.transferFailure .transmit (.err c))]
    else [.callPoll .ok 1 [i], .report (.outOfRange .read i)]
  | .ok, [i, v] =>
    if i.toNat < n then [.callPoll .ok 2 [i, v], .snapshot (bankTable n (bankWith x i.toNat v))]
    else [.callPoll .ok 2 [i, v], .report (.outOfRange .write i)]
  | .ok, b0 :: b1 :: b2 :: rest =>
    [.callPoll .ok (rest.length + 3) (b0 :: b1 :: b2 :: rest), .report (.malformedFrame (rest.length + 3))]

/-- The bank after that iteration: only an in-range write frame changes it (R12). -/
def iterationBank (n : Nat) (x : Nat → Byte) (a : PollAnswer) : Nat → Byte :=
  match a.st, a.buf with
  | .ok, [i, v] => if i.toNat < n then bankWith x i.toNat v else x
  | _, _ => x

/-- Whether that iteration hands a byte to the port: only an in-range read frame does (R68). -/
def iterationTransmits (n : Nat) (a : PollAnswer) : Bool :=
  match a.st, a.buf with
  | .ok, [i] => decide (i.toNat < n)
  | _, _ => false

/-- The effect of one event on the bank as the trace tells it: a successfully polled two-byte frame with an index below n
writes its value (R105). -/
def bankStep (n : Nat) (x : Nat → Byte) : Event → (Nat → Byte)
  | .callPoll .ok _ [i, v] => if i.toNat < n then bankWith x i.toNat v else x
  | _ => x

/-- The bank a trace tells of, from the reset pattern (R11): each address holds "the value of the latest earlier write to the
same index, or the reset value" (R49 (a)). -/
def bankAfter (n : Nat) (trace : List Event) : Nat → Byte := trace.foldl (bankStep n) resetByte

/-- Every response in a trace answers the read frame polled just before it, and carries the value the earlier trace tells of
for the register that frame names (R49 (a), R68; by the spec's decisions D6 and D23 nothing else is ever sent). -/
def responsesTold (n : Nat) (trace : List Event) : Prop :=
  ∀ pre bs st post, trace = pre ++ .callTransmit bs st :: post →
    ∃ before index, pre = before ++ [.callPoll .ok 1 [index]] ∧ index.toNat < n ∧
      bs = [bankAfter n before index.toNat]

/-- The bank is what the trace tells, and so was every response (R49). -/
structure Consistent (s : State) : Prop where
  /-- Each register holds what the trace tells. -/
  bank      : ∀ a, a < s.params.n → s.x.read a = bankAfter s.params.n s.trace a
  /-- Each response carried what the trace then told. -/
  responses : responsesTold s.params.n s.trace

/-- How many events of a list satisfy a test. -/
def countEvents (p : Event → Bool) (es : List Event) : Nat := (es.filter p).length

/-- Is the event a `Report`? -/
def isReport : Event → Bool
  | .report _ => true
  | _ => false

/-- Is the event a `Snapshot`? -/
def isSnapshot : Event → Bool
  | .snapshot _ => true
  | _ => false

/-- Is the event a `CallTransmit`? -/
def isTransmit : Event → Bool
  | .callTransmit _ _ => true
  | _ => false

/-- Is the event a `Backoff`? -/
def isBackoff : Event → Bool
  | .backoff => true
  | _ => false

/-- Is the event a `CallPoll`? -/
def isPoll : Event → Bool
  | .callPoll _ _ _ => true
  | _ => false

/-- Is the event a `CallSetEnabled`? -/
def isSetEnabled : Event → Bool
  | .callSetEnabled _ _ _ => true
  | _ => false

end Sys2Proof.Machine
end

