-- ==== Sys2Proof/Certificates/Slice0/Obligations.lean ====
section
/-! DEFINITION. The statements for the provers. Where a statement needs no invariant it speaks of every state, reached or not.
The environment's answers (`shutdownLevel`, `pollAnswer`, `transmitAnswer`, `setEnabledAnswer`) stand for themselves
everywhere, so every statement holds whatever a free answer is. `pollAnswer s` is the answer of the next poll, which the sampling
of the shutdown signal before it does not change; `sampled s` is the state once the signal is sampled. -/

open Sys2Proof Sys2Proof.Machine

/-! ### Decoder and encoder -/

/-- R90, R64. The count alone selects the class, and the decoder reads no byte beyond the class's operands. -/
def Obligations.DecodeSelectsByCountAlone : Prop :=
  (∀ buf, decode 0 buf = .ok .idle) ∧
  (∀ b0 rest, decode 1 (b0 :: rest) = .ok (.rd b0)) ∧
  (∀ b0 b1 rest, decode 2 (b0 :: b1 :: rest) = .ok (.wr b0 b1)) ∧
  (∀ n buf, 3 ≤ n → decode n buf = .ok (.bad n))

/-- R91. On every count, with whatever buffer contents, the decoder answers exactly one Transaction, a well-formed frame and
never a lifecycle event, and does not fail. The buffer holds the bytes the class reads, as every poll answer does: two at
most, and none for n >= 3 (R90). -/
def Obligations.DecodeIsTotalAndAnswersFrames : Prop :=
  ∀ (n : Nat) (buf : List Byte), n ≤ buf.length ∨ 3 ≤ n →
    ∃! i : Instr, decode n buf = .ok i ∧ i.isFrame = true ∧ i.wellFormed = true

/-- The model's choice (log entry 12): the decoder refuses, by name, exactly the pairs that no poll can answer, a count of 1 or
2 with fewer bytes than that. -/
def Obligations.DecodeRefusesExactlyShortBuffers : Prop :=
  ∀ (n : Nat) (buf : List Byte),
    (n ≤ 2 ∧ buf.length < n → decode n buf = .error (.shortBuffer n buf.length)) ∧
    ((∃ e, decode n buf = .error e) → n ≤ 2 ∧ buf.length < n)

/-- R61, 95_test_vectors.md section 2.2 and Program A. Frames written out bit by bit decode to the instructions they stand
for. That byte 0 is bits 7..0 of a number given as a table word is the model's choice (log entry 18). -/
def Obligations.WrittenOutFramesDecode : Prop :=
  decodeTableWord 0 0 = some .idle ∧
  decodeTableWord 8 0b00000011 = some (.rd 0x03#8) ∧
  decodeTableWord 16 0b0101101000000010 = some (.wr 0x02#8 0x5A#8) ∧
  decodeTableWord 24 0b101110111010101000000000 = some (.bad 3) ∧
  decode 1000000 [] = .ok (.bad 1000000)

/-- Decoding the frame of a well-formed instruction gives it back, with every operand at every value; exactly the two
lifecycle events have no frame (R61, R70). The frame of `BAD` is the model's representative (log entry 5). -/
def Obligations.DecodeOfEncodeIsTheInstruction : Prop :=
  ∀ i : Instr, i.wellFormed = true →
    (∀ frame, encode i = some frame → decode frame.length frame = .ok i) ∧
    (encode i = none ↔ i = .start ∨ i = .stop)

/-- Encoding what a frame decodes to gives the frame back where every byte is an operand (fewer than three bytes), and gives
a frame of the same length and the same meaning where the bytes are ignored. -/
def Obligations.EncodeOfDecodeIsTheFrame : Prop :=
  ∀ (buf : List Byte) (i : Instr), decode buf.length buf = .ok i →
    (buf.length < 3 → encode i = some buf) ∧
    ∃ frame, encode i = some frame ∧ frame.length = buf.length ∧ decode frame.length frame = .ok i

/-! ### The RegisterBank -/

/-- R80. The checked read: the error exactly out of range, the stored byte in range. It returns no state, so it writes
none. -/
def Obligations.CheckedReadFailsExactlyOutOfRange : Prop :=
  ∀ (s : State) (index : Byte),
    (s.params.n ≤ index.toNat → memRead index s = .error (.outOfRange .read index)) ∧
    (index.toNat < s.params.n → memRead index s = .ok (s.x.read index.toNat)) ∧
    (s.params.legal = true → memRead 255#8 s = .error (.outOfRange .read 255#8) ∧
      memRead 0#8 s = .ok (s.x.read 0))

/-- R81. The checked write: the error exactly out of range; in range, the value lands at the index, every other register and
every other field of the state is as before. -/
def Obligations.CheckedWriteChangesOneRegister : Prop :=
  ∀ (s : State) (index value : Byte),
    (s.params.n ≤ index.toNat → memWrite index value s = .error (.outOfRange .write index)) ∧
    (index.toNat < s.params.n → ∃ t, memWrite index value s = .ok t ∧ t.x.read index.toNat = value ∧
      (∀ a, a ≠ index.toNat → t.x.read a = s.x.read a) ∧ t = { s with x := t.x })

/-- R83. The laws of the bank: (a) a write in range is read back, (b) out of range both accessors fail, and a failed access
has no next state, (c) the other registers answer as before, (d) the bank has N entries before and after. -/
def Obligations.BankLaws : Prop :=
  ∀ (s : State) (index value : Byte),
    (index.toNat < s.params.n → ∃ t, memWrite index value s = .ok t ∧ memRead index t = .ok value ∧
      (∀ other, other ≠ index → memRead other t = memRead other s) ∧
      (snapshot t).length = s.params.n) ∧
    (s.params.n ≤ index.toNat → memRead index s = .error (.outOfRange .read index) ∧
      memWrite index value s = .error (.outOfRange .write index)) ∧
    (snapshot s).length = s.params.n

/-- R40. An address below N holds a byte, an address of N or more is the error and touches nothing; 255 is always out of
range and 0 always in range. -/
def Obligations.AddressSpaceIsZeroToNMinusOne : Prop :=
  ∀ (s : State) (index value : Byte), s.params.legal = true →
    ((∃ v, memRead index s = .ok v) ↔ index.toNat < s.params.n) ∧
    ((∃ t, memWrite index value s = .ok t) ↔ index.toNat < s.params.n) ∧
    (s.params.n ≤ index.toNat → memRead index s = .error (.outOfRange .read index) ∧
      memWrite index value s = .error (.outOfRange .write index)) ∧
    s.params.n ≤ (255#8).toNat ∧ (0#8).toNat < s.params.n

/-- 40_register_bank.md, `snapshot()`: entry k is the pair of k and register k, for every k below N in ascending order. Its
content and order are the spec's decision D24. -/
def Obligations.SnapshotListsEveryRegisterInOrder : Prop :=
  ∀ s : State, (snapshot s).length = s.params.n ∧
    ∀ k, k < s.params.n → (snapshot s)[k]? = some (k, s.x.read k)

/-- Two banks in canonical form that read alike at every register are the same data. The form is the model's. -/
def Obligations.CanonicalBanksThatReadAlikeAreEqual : Prop :=
  ∀ (n : Nat) (m m' : Memory), m.wf n → m'.wf n → (∀ a, a < n → m.read a = m'.read a) → m = m'

/-- 20_memory.md section 4 and section 6: writing a value twice is writing it once; of two writes to one register the last
wins; writes to two registers commute. All as equality of the state's data. -/
def Obligations.WritesSettleByRegister : Prop :=
  ∀ (n : Nat) (m : Memory) (a b : Nat) (v w : Byte), m.wf n → a < n → b < n →
    (m.write a v).write a v = m.write a v ∧
    (m.write a v).write a w = m.write a w ∧
    (a ≠ b → (m.write a v).write b w = (m.write b w).write a v)

/-! ### What each instruction does -/

/-- R103. The meaning of `IDLE`, and the whole iteration: nothing but the backoff, taken on every idle poll. -/
def Obligations.IdlePollOnlyBacksOff : Prop :=
  (∀ s : State, s.params.legal = true → s.ctl = .polling →
    exec .idle s = .next { s with ctl := .idling, tx := [], trace := s.trace ++ [.backoff] }) ∧
  (∀ s : State, s.params.legal = true → s.ctl = .polling → s.rx = [] → s.tx = [] →
    shutdownLevel s = false → pollAnswer s = ⟨.ok, []⟩ →
    step s = .next { s with
      env := { s.env with shutdown := s.env.shutdown.advance, poll := s.env.poll.advance },
      trace := s.trace ++ [.callPoll .ok 0 [], .backoff] })

/-- The meaning of `RD` in range (42_slave_controller.md section 2): the register's byte is handed to the port, the buffers
are cleared, and a snapshot is emitted where the transmit succeeds. That a failed transmit is reported without a
snapshot and that the byte is dropped are the spec's decisions D8 and D7. -/
def Obligations.ReadInRangeSendsTheRegister : Prop :=
  ∀ (s : State) (index : Byte), s.params.legal = true → s.ctl = .polling → index.toNat < s.params.n →
    exec (.rd index) s = .next { s with
      ctl := .servicingRead, rx := [], tx := [],
      env := { s.env with transmit := s.env.transmit.advance },
      trace := s.trace ++ [.callTransmit [s.x.read index.toNat] (transmitAnswer s),
        match transmitAnswer s with
        | .ok => .snapshot (bankTable s.params.n s.x.read)
        | .err c => .report (.transferFailure .transmit (.err c))] }

/-- The meaning of `RD` out of range: the error is reported and nothing is staged or sent, which is the spec's decision D6. -/
def Obligations.ReadOutOfRangeSendsNothing : Prop :=
  ∀ (s : State) (index : Byte), s.params.legal = true → s.ctl = .polling → s.params.n ≤ index.toNat →
    exec (.rd index) s = .next { s with
      ctl := .rejectingMalformed, trace := s.trace ++ [.report (.outOfRange .read index)] }

/-- The meaning of `WR` in range (42_slave_controller.md section 2): the value lands at the index, every other register is as
before, and the snapshot is of the bank after the write. That nothing is sent is the spec's decision D23. -/
def Obligations.WriteInRangeStoresTheValue : Prop :=
  ∀ (s : State) (index value : Byte), s.params.legal = true → s.ctl = .polling → index.toNat < s.params.n →
    ∃ t, exec (.wr index value) s = .next t ∧ t.x.read index.toNat = value ∧
      (∀ a, a ≠ index.toNat → t.x.read a = s.x.read a) ∧
      t = { s with
        x := t.x, ctl := .servicingWrite,
        trace := s.trace ++ [.snapshot (bankTable s.params.n (bankWith s.x.read index.toNat value))] }

/-- The meaning of `WR` out of range: the error is reported, no register changes and the value is discarded. -/
def Obligations.WriteOutOfRangeChangesNothing : Prop :=
  ∀ (s : State) (index value : Byte), s.params.legal = true → s.ctl = .polling → s.params.n ≤ index.toNat →
    exec (.wr index value) s = .next { s with
      ctl := .rejectingMalformed, trace := s.trace ++ [.report (.outOfRange .write index)] }

/-- The meaning of `BAD`: the warning alone. That the state is `RejectingMalformed` is the spec's reading C6. -/
def Obligations.MalformedFrameOnlyWarns : Prop :=
  ∀ (s : State) (n : Nat), s.params.legal = true → s.ctl = .polling → 3 ≤ n →
    exec (.bad n) s = .next { s with
      ctl := .rejectingMalformed, trace := s.trace ++ [.report (.malformedFrame n)] }

/-- The meaning of `START` (43_lifecycle.md): one enable call with `SLAVE_ADDR`; on success `Polling`, on failure the report,
`fatal` and `Failed`, by the spec's decisions D10, D13 and D25. -/
def Obligations.StartEnablesThePort : Prop :=
  ∀ s : State, s.params.legal = true → s.ctl = .initializing →
    (setEnabledAnswer s = .ok → exec .start s = .next { s with
      ctl := .polling, env := { s.env with setEnabled := s.env.setEnabled.advance },
      trace := s.trace ++ [.callSetEnabled true s.params.slaveAddr .ok] }) ∧
    (∀ c, setEnabledAnswer s = .err c → exec .start s = .next { s with
      ctl := .failed, fatal := true, env := { s.env with setEnabled := s.env.setEnabled.advance },
      trace := s.trace ++ [.callSetEnabled true s.params.slaveAddr (.err c),
        .report (.transferFailure .enable (.err c))] })

/-- The meaning of `STOP` (43_lifecycle.md): one disable call with `SLAVE_ADDR`, the buffers cleared, `Closing`; a failed
disable is reported and not fatal, by the spec's decision D12. -/
def Obligations.StopDisablesThePort : Prop :=
  ∀ s : State, s.params.legal = true → s.ctl = .polling →
    (setEnabledAnswer s = .ok → exec .stop s = .next { s with
      ctl := .closing, rx := [], tx := [], env := { s.env with setEnabled := s.env.setEnabled.advance },
      trace := s.trace ++ [.callSetEnabled false s.params.slaveAddr .ok] }) ∧
    (∀ c, setEnabledAnswer s = .err c → exec .stop s = .next { s with
      ctl := .closing, rx := [], tx := [], env := { s.env with setEnabled := s.env.setEnabled.advance },
      trace := s.trace ++ [.callSetEnabled false s.params.slaveAddr (.err c),
        .report (.transferFailure .disable (.err c))] })

/-- Where an event's rule does not have it happen, the model refuses it by name (the model's choice, log entry 9): a frame or
`STOP` outside `Polling`, `START` outside `Initializing`. -/
def Obligations.EventsOutsideTheirStateAreRefused : Prop :=
  ∀ s : State, s.params.legal = true →
    (∀ i : Instr, i.isFrame = true ∨ i = .stop → s.ctl ≠ .polling → exec i s = .refused .eventNotPossible) ∧
    (s.ctl ≠ .initializing → exec .start s = .refused .eventNotPossible)

/-- N outside 1..255 has no meaning and is refused everywhere; N in 1..255 is constructed. The range is the spec's decision
D4. -/
def Obligations.OnlyOneTo255RegistersAreAdmitted : Prop :=
  (∀ s : State, s.params.n = 0 ∨ 256 ≤ s.params.n →
    (∀ i, exec i s = .refused .illegalParameters) ∧ step s = .refused .illegalParameters) ∧
  (∀ (p : Params) (e : Env), (1 ≤ p.n ∧ p.n ≤ 255 → construct p e = some (State.resetIn p e)) ∧
    (p.n = 0 ∨ 256 ≤ p.n → construct p e = none))

/-! ### Frames: what an instruction leaves unchanged -/

/-- The instructions that store nothing: every register reads as before, and so do the parameters; `fatal` changes only by
`START`; each touches only the answers of the port call it makes, and the trace only grows. -/
def Obligations.NonStoringInstructionsKeepTheBank : Prop :=
  ∀ (i : Instr) (s t : State), (∀ index value, i ≠ .wr index value) → exec i s = .next t →
    (∀ a, t.x.read a = s.x.read a) ∧ t.params = s.params ∧ (i ≠ .start → t.fatal = s.fatal) ∧
    t.env.shutdown = s.env.shutdown ∧ t.env.poll = s.env.poll ∧
    ((∀ index, i ≠ .rd index) → t.env.transmit = s.env.transmit) ∧
    (i ≠ .start → i ≠ .stop → t.env.setEnabled = s.env.setEnabled) ∧
    ((∀ index, i ≠ .rd index) → i ≠ .stop → t.rx = s.rx) ∧
    ((∀ index, i ≠ .rd index) → i ≠ .stop → i ≠ .idle → t.tx = s.tx) ∧
    s.trace <+: t.trace

/-- The one instruction that stores: the byte stored to is the register its index names, only where that is in range; every
other byte reads as before, and so does all else but the controller state and the trace, which only grows. -/
def Obligations.WriteFrameKeepsAllButItsRegister : Prop :=
  ∀ (s t : State) (index value : Byte), exec (.wr index value) s = .next t →
    (∀ a, a ≠ registerIndex index → t.x.read a = s.x.read a) ∧
    (inRange s.params.n index = false → ∀ a, t.x.read a = s.x.read a) ∧
    t.rx = s.rx ∧ t.tx = s.tx ∧ t.fatal = s.fatal ∧ t.params = s.params ∧ t.env = s.env ∧ s.trace <+: t.trace

/-! ### The step -/

/-- A step from `Polling` with no shutdown seen and a successful poll runs the decoded frame's meaning in the state in which
the signal is sampled, the poll is recorded and the bytes are in `rx`, and then ends the iteration. -/
def Obligations.StepRunsTheDecodedFrame : Prop :=
  ∀ (s : State) (i : Instr) (buf : List Byte), s.params.legal = true → s.ctl = .polling →
    shutdownLevel s = false → pollAnswer s = ⟨.ok, buf⟩ → decode buf.length buf = .ok i →
    step s = thenEndIteration (exec i { s with
      rx := buf,
      env := { s.env with shutdown := s.env.shutdown.advance, poll := s.env.poll.advance },
      trace := s.trace ++ [.callPoll .ok buf.length buf] })

/-- A step from `Initializing` is `START`, and a step from `Polling` that sees the shutdown signal is `STOP`, with no poll. -/
def Obligations.StepRunsTheLifecycleEvents : Prop :=
  (∀ s : State, s.params.legal = true → s.ctl = .initializing → step s = exec .start s) ∧
  (∀ s : State, s.params.legal = true → s.ctl = .polling → shutdownLevel s = true →
    step s = exec .stop { s with env := { s.env with shutdown := s.env.shutdown.advance } })

/-- A frame the host lays down for the next step is what that step runs. -/
def Obligations.PlacedFrameRunsNext : Prop :=
  ∀ (s : State) (nbits w : Nat) (i : Instr), s.params.legal = true → decodeTableWord nbits w = some i →
    ∃ u, step (s.withFetchWord nbits w) = thenEndIteration (exec i u) ∧ u.ctl = .polling ∧ u.x = s.x ∧
      u.params = s.params ∧ u.rx = tableBytes nbits w ∧ u.env.transmit = s.env.transmit

/-- A failed poll is reported and nothing else happens, whatever count and bytes came with it: the spec's decision D3. -/
def Obligations.FailedPollIsOnlyReported : Prop :=
  ∀ (s : State) (c : Nat) (buf : List Byte), s.params.legal = true → s.ctl = .polling →
    shutdownLevel s = false → pollAnswer s = ⟨.err c, buf⟩ →
    step s = .next { s with
      rx := [], tx := [],
      env := { s.env with shutdown := s.env.shutdown.advance, poll := s.env.poll.advance },
      trace := s.trace ++ [.callPoll (.err c) buf.length buf, .report (.transferFailure .poll (.err c))] }

/-- R151. In an iteration `OutOfRange` is reported exactly where a successful poll brings an `RD` or `WR` frame with an index
of N or more; then no register changes, nothing is staged or sent, and the loop continues. -/
def Obligations.OutOfRangeReportedExactlyForBadIndex : Prop :=
  ∀ s : State, s.params.legal = true → s.ctl = .polling → shutdownLevel s = false →
    ∃ t es, step s = .next t ∧ t.trace = s.trace ++ es ∧
      (∀ index, .report (.outOfRange .read index) ∈ es ↔
        pollAnswer s = ⟨.ok, [index]⟩ ∧ s.params.n ≤ index.toNat) ∧
      (∀ index, .report (.outOfRange .write index) ∈ es ↔
        ∃ value, pollAnswer s = ⟨.ok, [index, value]⟩ ∧ s.params.n ≤ index.toNat) ∧
      ((∃ op index, .report (.outOfRange op index) ∈ es) →
        t.x = s.x ∧ t.ctl = .polling ∧ t.tx = [] ∧ countEvents isTransmit es = 0)

/-- R152. In an iteration `MalformedFrame` is reported exactly where a successful poll brings three bytes or more; then the
bytes are discarded, no register changes, and the loop continues. -/
def Obligations.MalformedReportedExactlyForThreeBytesOrMore : Prop :=
  ∀ s : State, s.params.legal = true → s.ctl = .polling → shutdownLevel s = false →
    ∃ t es, step s = .next t ∧ t.trace = s.trace ++ es ∧
      (∀ n, .report (.malformedFrame n) ∈ es ↔
        (pollAnswer s).st = .ok ∧ (pollAnswer s).count = n ∧ 3 ≤ n) ∧
      ((∃ n, .report (.malformedFrame n) ∈ es) → t.x = s.x ∧ t.ctl = .polling ∧ t.rx = [])

/-- R109's table, whole: for every bank, every poll answer and every answer to a transmit, one iteration appends exactly the
row's events, leaves exactly the row's bank, ends in `Polling` with both buffers empty, and takes from the environment
exactly one shutdown sample, one poll, and a transmit answer where the row transmits. The rows rest on the spec's
decisions D3, D6, D7, D8, D23 and D24. -/
def Obligations.IterationFollowsTheEventTable : Prop :=
  ∀ s : State, s.params.legal = true → s.ctl = .polling → shutdownLevel s = false →
    ∃ t, step s = .next t ∧
      t.trace = s.trace ++ iterationEvents s.params.n s.x.read (pollAnswer s) (transmitAnswer s) ∧
      (∀ a, t.x.read a = iterationBank s.params.n s.x.read (pollAnswer s) a) ∧
      t.ctl = .polling ∧ t.rx = [] ∧ t.tx = [] ∧ t.fatal = s.fatal ∧ t.params = s.params ∧
      t.env = { s.env with
        shutdown := s.env.shutdown.advance, poll := s.env.poll.advance,
        transmit := if iterationTransmits s.params.n (pollAnswer s) then s.env.transmit.advance
          else s.env.transmit }

/-- 42_slave_controller.md section 3: a step only appends to the trace; an iteration emits at most one `Report`, `Snapshot`,
`CallTransmit` and `Backoff`, never both a `Report` and a `Snapshot`, and polls exactly once where no shutdown is seen
and never where it is. -/
def Obligations.IterationEmitsAtMostOneOfEach : Prop :=
  (∀ s t : State, step s = .next t → s.trace <+: t.trace) ∧
  (∀ s t : State, s.ctl = .polling → step s = .next t → ∃ es, t.trace = s.trace ++ es ∧
    countEvents isReport es ≤ 1 ∧ countEvents isSnapshot es ≤ 1 ∧ countEvents isTransmit es ≤ 1 ∧
    countEvents isBackoff es ≤ 1 ∧ countEvents isReport es + countEvents isSnapshot es ≤ 1 ∧
    countEvents isPoll es = (if shutdownLevel s then 0 else 1) ∧
    countEvents isSetEnabled es = (if shutdownLevel s then 1 else 0))

/-- 10_state.md section 2: whatever step a register changes in, that step polled an in-range write frame that names the
register, and the register's new value is the frame's. -/
def Obligations.OnlyAnInRangeWriteFrameChangesARegister : Prop :=
  ∀ (s t : State) (a : Nat), step s = .next t → t.x.read a ≠ s.x.read a →
    s.ctl = .polling ∧ shutdownLevel s = false ∧ a < s.params.n ∧
      ∃ index value, pollAnswer s = ⟨.ok, [index, value]⟩ ∧ index.toNat = a ∧ t.x.read a = value

/-- 42_slave_controller.md section 3: an iteration changes no parameter and not `fatal`. Of the registers it may change only the
one that an in-range write frame names, where no shutdown is seen; with any other poll answer, and where shutdown is seen,
every register reads as before. That a failed poll changes none and that a seen shutdown polls nothing are the spec's
decisions D3 and D11. -/
def Obligations.IterationSideEffectsAreBounded : Prop :=
  ∀ s t : State, s.ctl = .polling → step s = .next t →
    t.fatal = s.fatal ∧ t.params = s.params ∧
    (∀ index value, shutdownLevel s = false → pollAnswer s = ⟨.ok, [index, value]⟩ →
      inRange s.params.n index = true → ∀ a, a ≠ registerIndex index → t.x.read a = s.x.read a) ∧
    (shutdownLevel s = true ∨ (∀ index value, pollAnswer s = ⟨.ok, [index, value]⟩ → inRange s.params.n index = false) →
      ∀ a, t.x.read a = s.x.read a)

/-- R108. An iteration depends on nothing an earlier iteration left but the bank: two states with the same bank, parameters
and environment go on alike, whatever their buffers, traces and `fatal` bits; and an iteration that reports an error leaves
no trace in the bank, the `fatal` bit or the parameters. -/
def Obligations.OnlyTheBankPassesToTheNextIteration : Prop :=
  (∀ s s' t : State, s.ctl = .polling → s'.ctl = .polling → s'.x = s.x → s'.params = s.params → s'.env = s.env →
    step s = .next t → ∃ t' es, step s' = .next t' ∧ t.trace = s.trace ++ es ∧ t'.trace = s'.trace ++ es ∧
      t'.x = t.x ∧ t'.ctl = t.ctl ∧ t'.rx = t.rx ∧ t'.tx = t.tx ∧ t'.params = t.params ∧ t'.env = t.env) ∧
  (∀ (s t : State) (es : List Event), s.ctl = .polling → step s = .next t → t.trace = s.trace ++ es →
    countEvents isReport es ≠ 0 → t.x = s.x ∧ t.fatal = s.fatal ∧ t.params = s.params)

/-- 42_slave_controller.md section 3 and 70_reset_and_hazards.md section 4: every iteration finishes, in `Polling` or, where the
shutdown signal was seen, in `Closing`; and no step from a state that meets the invariant is refused. -/
def Obligations.EveryIterationFinishes : Prop :=
  (∀ s : State, s.params.legal = true → s.ctl = .polling →
    ∃ t, step s = .next t ∧ t.ctl = if shutdownLevel s then .closing else .polling) ∧
  (∀ (s : State) (r : Refusal), Inv s → step s ≠ .refused r)

/-- 60_exceptions.md section 4: only a failed startup enable takes the machine to `Failed`, it always does, the machine stops
in `Failed` and nowhere else, and there is no return. The state `Failed` is the spec's decision D10 and stopping in it by a
fault the model's choice (log entry 6). -/
def Obligations.OnlyAFailedStartupStopsTheMachine : Prop :=
  (∀ s t : State, step s = .next t → t.ctl = .failed →
    s.ctl = .initializing ∧ (∃ c, setEnabledAnswer s = .err c) ∧ t.fatal = true) ∧
  (∀ (s : State) (c : Nat), s.params.legal = true → s.ctl = .initializing → setEnabledAnswer s = .err c →
    ∃ t, step s = .next t ∧ t.ctl = .failed ∧ t.fatal = true ∧ t.x = s.x) ∧
  (∀ (s : State) (f : Fault), step s = .fault f ↔ s.params.legal = true ∧ s.ctl = .failed ∧ f = .startupFailed)

/-- 43_lifecycle.md: `Closing` and `Failed` are terminal. However many steps are made, nothing happens in `Closing`, and no
step is made from `Failed`. That `Closing` stays in place as a step rather than stopping is the model's choice (log
entry 6). -/
def Obligations.TerminalStatesAreNeverLeft : Prop :=
  ∀ (s : State) (k : Nat), s.params.legal = true →
    (s.ctl = .closing → Host.Core.run core k s = .next s) ∧
    (s.ctl = .failed → Host.Core.run core (k + 1) s = .fault .startupFailed)

/-! ### Errors, reset, instances -/

/-- 60_exceptions.md sections 1 and 4: raising an error moves the controller to its entry state, reports it, and does nothing
more; only the startup enable's failure also sets `fatal`. The codes 1, 2, 3 and the entry states of the transfer failures
are the spec's decisions D9, D10 and D12. -/
def Obligations.RaisingAnErrorOnlyReportsIt : Prop :=
  ∀ s : State,
    (∀ op index, raise (.outOfRange op index) s =
      { s with ctl := .rejectingMalformed, trace := s.trace ++ [.report (.outOfRange op index)] }) ∧
    (∀ n, raise (.malformedFrame n) s =
      { s with ctl := .rejectingMalformed, trace := s.trace ++ [.report (.malformedFrame n)] }) ∧
    (∀ st, raise (.transferFailure .enable st) s =
      { s with ctl := .failed, fatal := true, trace := s.trace ++ [.report (.transferFailure .enable st)] }) ∧
    (∀ op st, op ≠ .enable → raise (.transferFailure op st) s =
      { s with trace := s.trace ++ [.report (.transferFailure op st)] }) ∧
    (∀ op index, errorCode (some (.outOfRange op index)) = 1) ∧ (∀ n, errorCode (some (.malformedFrame n)) = 2) ∧
    (∀ op st, errorCode (some (.transferFailure op st)) = 3) ∧ errorCode none = 0

/-- 10_state.md section 9: every field after reset, and the bank's pattern i+1, which never wraps for an admitted N. The values
other than the bank's are the spec's decision D25. -/
def Obligations.ResetValues : Prop :=
  (∀ (p : Params) (e : Env),
    let s := State.resetIn p e
    (p.legal = true → ∀ a, a < p.n → (s.x.read a).toNat = a + 1) ∧
    s.ctl = .initializing ∧ s.rx = [] ∧ s.tx = [] ∧ s.fatal = false ∧ s.trace = [] ∧ s.params = p) ∧
  State.reset.params.n = 8 ∧
  snapshot State.reset = [(0, 1#8), (1, 2#8), (2, 3#8), (3, 4#8), (4, 5#8), (5, 6#8), (6, 7#8), (7, 8#8)]

/-- A reset of a core in any state gives the reset state of its parameters, and nothing of the old bank, buffers, controller
state, `fatal` bit or trace survives (70_reset_and_hazards.md section 1). That a reset is an operation beside `step`, and
that it leaves the environment's channels as they are, is the model's choice (log entry 7). -/
def Obligations.ResetForgetsTheOldLife : Prop :=
  ∀ s : State, applyReset s = State.resetIn s.params s.env ∧
    ∀ s' : State, s'.params = s.params → s'.env = s.env → applyReset s' = applyReset s

/-- 10_state.md section 4: `EXIT_FAIL` is non-zero, every non-zero integer is admitted, and a machine has an exit status exactly
where the startup enable failed: the spec's decision D13. -/
def Obligations.ExitStatusIsNonZeroAndOnlyAfterFailure : Prop :=
  (∀ (s : State) (z : Int), exitStatus s = some z → z ≠ 0 ∧ s.fatal = true) ∧
  (∀ s : State, s.fatal = true → exitStatus s = some s.params.exitFail.toInt) ∧
  (∀ z : Int, z ≠ 0 → ∃ e : ExitFail, e.toInt = z)

/-- R137. A step or a reset of one instance is a step or a reset of that one only: every other instance is as it was. -/
def Obligations.InstancesShareNothing : Prop :=
  ∀ (k : Nat) (is : Instances),
    (∀ is' : Instances, stepInstance k is = some (.next is') →
      is'.length = is.length ∧ (∀ j, j ≠ k → is'[j]? = is[j]?) ∧
      ∃ s t, is[k]? = some s ∧ step s = .next t ∧ is'[k]? = some t) ∧
    ((resetInstance k is).length = is.length ∧ (∀ j, j ≠ k → (resetInstance k is)[j]? = is[j]?) ∧
      (resetInstance k is)[k]? = is[k]?.map applyReset)

/-! ### Whole-machine claims -/

/-- 00_scope.md section 4: no step reads `BACKOFF`, `LOG_EN` or `EXIT_FAIL`: two machines that differ only there go on alike. -/
def Obligations.OpenParametersAreNeverRead : Prop :=
  ∀ (s : State) (backoff : Nat) (logEn : Bool) (exitFail : ExitFail),
    let other := fun u : State =>
      { u with params := { u.params with backoff := backoff, logEn := logEn, exitFail := exitFail } }
    step (other s) = match step s with
      | .next t => .next (other t)
      | .fault f => .fault f
      | .refused r => .refused r

/-- The source's round trip (95_test_vectors.md S-P5): a write frame in range and then a read frame of the same index hands
the written value to the port. -/
def Obligations.WriteThenReadReturnsTheValue : Prop :=
  ∀ (s : State) (index value : Byte), s.params.legal = true → s.ctl = .polling → index.toNat < s.params.n →
    shutdownLevel s = false → pollAnswer s = ⟨.ok, [index, value]⟩ →
    ∃ t, step s = .next t ∧
      (shutdownLevel t = false → pollAnswer t = ⟨.ok, [index]⟩ →
        ∃ u last, step t = .next u ∧
          u.trace = t.trace ++ [.callPoll .ok 1 [index], .callTransmit [value] (transmitAnswer t), last])

/-- The source's idempotence (95_test_vectors.md S-P4), for any number of steps: while the trace gains no successfully polled
write frame for a register, the register keeps its value, so every read of it gives the same byte. -/
def Obligations.RegisterKeepsItsValueWithoutAWriteFrame : Prop :=
  ∀ (k : Nat) (s t : State) (es : List Event) (index : Byte), Host.Core.run core k s = .next t →
    t.trace = s.trace ++ es → (∀ n value, .callPoll .ok n [index, value] ∉ es) →
    t.x.read index.toNat = s.x.read index.toNat

/-- The state right after a reset with an admitted N meets the invariant. -/
def Obligations.ResetMeetsTheInvariant : Prop :=
  ∀ (p : Params) (e : Env), p.legal = true → Inv (State.resetIn p e)

/-- From every state that meets it, whatever the environment answers, a step keeps the invariant: the bank in canonical form,
no service state between iterations, empty buffers, `fatal` exactly in `Failed`. -/
def Obligations.StepKeepsTheInvariant : Prop :=
  ∀ s t : State, Inv s → step s = .next t → Inv t

/-- The state right after a reset is one the trace tells of. -/
def Obligations.ResetBankIsWhatTheTraceTells : Prop :=
  ∀ (p : Params) (e : Env), Consistent (State.resetIn p e)

/-- 20_memory.md section 6. Every step keeps the bank and the responses what the trace tells: frames take effect in the order
of the polls, each register holds the value of the latest earlier write to its index or its reset value, and every response
carries that value for the register its read frame names. That every response answers an in-range read frame rests on the
spec's decisions D6 and D23, and that a failed poll writes nothing on D3 (log entry 15). -/
def Obligations.BankAndResponsesFollowThePolls : Prop :=
  ∀ s t : State, Consistent s → step s = .next t → Consistent t
end

