-- ==== Sys2Proof/Laws/Decode.lean ====
section
/-! SUPPORT. The decoder, class by class. -/

namespace Sys2Proof

@[simp] theorem decode_zero (buf : List Byte) : decode 0 buf = .ok .idle := rfl

@[simp] theorem decode_one (b0 : Byte) (rest : List Byte) : decode 1 (b0 :: rest) = .ok (.rd b0) := rfl

@[simp] theorem decode_two (b0 b1 : Byte) (rest : List Byte) : decode 2 (b0 :: b1 :: rest) = .ok (.wr b0 b1) := rfl

@[simp] theorem decode_long (k : Nat) (buf : List Byte) : decode (k + 3) buf = .ok (.bad (k + 3)) := rfl

/-- What the decoder makes of a frame, by the shape of its bytes. -/
theorem decode_frame (buf : List Byte) :
    decode buf.length buf = .ok (match buf with
      | [] => .idle
      | [i] => .rd i
      | [i, v] => .wr i v
      | _ :: _ :: _ :: rest => .bad (rest.length + 3)) := by
  match buf with
  | [] => rfl
  | [_] => rfl
  | [_, _] => rfl
  | _ :: _ :: _ :: _ => rfl

end Sys2Proof
end

