-- ==== Sys2Proof/Laws/Instances.lean ====
section
/-! SUPPORT. Instances constructed side by side: what each of them is, said once. -/

namespace Sys2Proof.Machine

open Sys2Proof

/-- Instances are constructed exactly where every N is admitted (43_lifecycle.md R137, 00_scope.md R5). -/
theorem constructInstances_isSome {ps : List Params} :
    (constructInstances ps).isSome = true ↔ ∀ p ∈ ps, p.legal = true := by
  unfold constructInstances
  split <;> simp_all [List.all_eq_true]

/-- Instance k is the reset of its own parameters with an environment of source k. -/
theorem constructInstances_get {ps : List Params} {is : Instances} (h : constructInstances ps = some is) (k : Nat) :
    is[k]? = ps[k]?.map fun p => State.resetIn p (Env.freshFrom k) := by
  unfold constructInstances at h
  split at h
  · cases h; exact List.getElem?_mapIdx
  · cases h

end Sys2Proof.Machine
end

