-- ==== Sys2Proof/Laws/Memory.lean ====
section
/-! SUPPORT. The laws of the bank as memory: what a read gives after a write, and that every memory operation keeps the
canonical form. -/

namespace Sys2Proof.Machine

open Sys2Proof

/-- A listed address below every listed address of a bank is not listed in it. -/
theorem Memory.lookup_of_lt {a : Nat} {m : Memory} (h : ∀ c ∈ m, a < c.1) : Memory.lookup a m = none := by
  induction m with
  | nil => rfl
  | cons c m ih =>
    have hc : a ≠ c.1 := Nat.ne_of_lt (h c (by simp))
    simp only [Memory.lookup, hc, if_false]
    exact ih fun d hd => h d (by simp [hd])

theorem Memory.lookup_insert_same (a : Nat) (v : Byte) (m : Memory) :
    Memory.lookup a (Memory.insert a v m) = some v := by
  induction m with
  | nil => simp [Memory.insert, Memory.lookup]
  | cons c m ih =>
    simp only [Memory.insert]
    split
    · simp [Memory.lookup]
    · split
      · simp [Memory.lookup]
      · next h => simp [Memory.lookup, h, ih]

theorem Memory.lookup_insert_other {a b : Nat} (v : Byte) (m : Memory) (h : b ≠ a) :
    Memory.lookup b (Memory.insert a v m) = Memory.lookup b m := by
  induction m with
  | nil => simp [Memory.insert, Memory.lookup, h]
  | cons c m ih =>
    simp only [Memory.insert]
    split
    · simp [Memory.lookup, h]
    · split
      · next hac => subst hac; simp [Memory.lookup, h]
      · simp only [Memory.lookup, ih]

theorem Memory.lookup_erase_other {a b : Nat} (m : Memory) (h : b ≠ a) :
    Memory.lookup b (Memory.erase a m) = Memory.lookup b m := by
  induction m with
  | nil => rfl
  | cons c m ih =>
    simp only [Memory.erase]
    split
    · next hac => subst hac; simp [Memory.lookup, h, ih]
    · simp only [Memory.lookup, ih]

theorem Memory.lookup_erase_same (a : Nat) (m : Memory) : Memory.lookup a (Memory.erase a m) = none := by
  induction m with
  | nil => rfl
  | cons c m ih =>
    simp only [Memory.erase]
    split
    · exact ih
    · next hac => simp only [Memory.lookup, hac, if_false]; exact ih

/-- Every pair of an unlisted bank was a pair of the bank. -/
theorem Memory.mem_of_mem_erase {a : Nat} {m : Memory} {c : Host.Cell} (h : c ∈ Memory.erase a m) : c ∈ m := by
  induction m with
  | nil => exact h
  | cons d m ih =>
    simp only [Memory.erase] at h
    split at h
    · simp [ih h]
    · rcases List.mem_cons.mp h with rfl | h
      · simp
      · simp [ih h]

/-- Every pair of a bank with a byte listed is that byte's or was a pair of the bank. -/
theorem Memory.mem_insert {a : Nat} {v : Byte} {m : Memory} {c : Host.Cell} (h : c ∈ Memory.insert a v m) :
    c = (a, v) ∨ c ∈ m := by
  induction m with
  | nil => simpa [Memory.insert] using h
  | cons d m ih =>
    simp only [Memory.insert] at h
    split at h
    · simpa using h
    · split at h
      · rcases List.mem_cons.mp h with h | h <;> simp [h]
      · rcases List.mem_cons.mp h with h | h
        · simp [h]
        · rcases ih h with h | h <;> simp [h]

theorem Memory.rising_erase {a : Nat} {m : Memory} (h : m.Pairwise (fun c d => c.1 < d.1)) :
    (Memory.erase a m).Pairwise (fun c d => c.1 < d.1) := by
  induction m with
  | nil => exact h
  | cons c m ih =>
    obtain ⟨hc, hm⟩ := List.pairwise_cons.mp h
    simp only [Memory.erase]
    split
    · exact ih hm
    · exact List.pairwise_cons.mpr ⟨fun d hd => hc d (Memory.mem_of_mem_erase hd), ih hm⟩

theorem Memory.rising_insert {a : Nat} {v : Byte} {m : Memory} (h : m.Pairwise (fun c d => c.1 < d.1)) :
    (Memory.insert a v m).Pairwise (fun c d => c.1 < d.1) := by
  induction m with
  | nil => simp [Memory.insert]
  | cons c m ih =>
    obtain ⟨hc, hm⟩ := List.pairwise_cons.mp h
    simp only [Memory.insert]
    split
    · next hac =>
      refine List.pairwise_cons.mpr ⟨fun d hd => ?_, h⟩
      rcases List.mem_cons.mp hd with rfl | hd
      · exact hac
      · exact Nat.lt_trans hac (hc d hd)
    · split
      · next hac => exact List.pairwise_cons.mpr ⟨fun d hd => hac ▸ hc d hd, hm⟩
      · refine List.pairwise_cons.mpr ⟨fun d hd => ?_, ih hm⟩
        rcases Memory.mem_insert hd with rfl | hd
        · simp only; omega
        · exact hc d hd

/-- A write keeps the canonical form (and a read changes nothing). -/
theorem Memory.wf_write {n a : Nat} {v : Byte} {m : Memory} (h : m.wf n) (ha : a < n) : (m.write a v).wf n := by
  unfold Memory.write
  split
  · exact ⟨Memory.rising_erase h.1, fun c hc => h.2 c (Memory.mem_of_mem_erase hc)⟩
  · next hv =>
    refine ⟨Memory.rising_insert h.1, fun c hc => ?_⟩
    rcases Memory.mem_insert hc with rfl | hc
    · exact ⟨ha, hv⟩
    · exact h.2 c hc

/-- The bank right after reset is in canonical form. -/
theorem Memory.wf_nil (n : Nat) : Memory.wf n [] := ⟨List.Pairwise.nil, by simp⟩

/-- A bank nothing was written to reads as the reset pattern. -/
@[simp] theorem Memory.read_nil (a : Nat) : Memory.read [] a = resetByte a := rfl

/-- A read of the address just written gives the value written. -/
theorem Memory.read_write_same (m : Memory) (a : Nat) (v : Byte) : (m.write a v).read a = v := by
  unfold Memory.write Memory.read
  split
  · next hv => rw [Memory.lookup_erase_same]; exact hv.symm
  · rw [Memory.lookup_insert_same]; rfl

/-- A write leaves every other address alone. -/
theorem Memory.read_write_other (m : Memory) {a b : Nat} (v : Byte) (h : b ≠ a) :
    (m.write a v).read b = m.read b := by
  unfold Memory.write Memory.read
  split
  · rw [Memory.lookup_erase_other m h]
  · rw [Memory.lookup_insert_other v m h]

end Sys2Proof.Machine
end

