-- ==== Sys2Proof/Laws/State.lean ====
section
/-! SUPPORT. What each named update leaves in each field of State: one lemma per field per update, so that no proof
unfolds a record update; and which answers of the environment an update leaves alone. -/

namespace Sys2Proof.Machine

open Sys2Proof

variable (s : State)

@[simp] theorem emit_x (e : Event) : (emit e s).x = s.x := rfl
@[simp] theorem emit_ctl (e : Event) : (emit e s).ctl = s.ctl := rfl
@[simp] theorem emit_rx (e : Event) : (emit e s).rx = s.rx := rfl
@[simp] theorem emit_tx (e : Event) : (emit e s).tx = s.tx := rfl
@[simp] theorem emit_fatal (e : Event) : (emit e s).fatal = s.fatal := rfl
@[simp] theorem emit_params (e : Event) : (emit e s).params = s.params := rfl
@[simp] theorem emit_env (e : Event) : (emit e s).env = s.env := rfl
@[simp] theorem emit_trace (e : Event) : (emit e s).trace = s.trace ++ [e] := rfl

@[simp] theorem setCtl_x (c : Ctl) : (setCtl c s).x = s.x := rfl
@[simp] theorem setCtl_ctl (c : Ctl) : (setCtl c s).ctl = c := rfl
@[simp] theorem setCtl_rx (c : Ctl) : (setCtl c s).rx = s.rx := rfl
@[simp] theorem setCtl_tx (c : Ctl) : (setCtl c s).tx = s.tx := rfl
@[simp] theorem setCtl_fatal (c : Ctl) : (setCtl c s).fatal = s.fatal := rfl
@[simp] theorem setCtl_params (c : Ctl) : (setCtl c s).params = s.params := rfl
@[simp] theorem setCtl_env (c : Ctl) : (setCtl c s).env = s.env := rfl
@[simp] theorem setCtl_trace (c : Ctl) : (setCtl c s).trace = s.trace := rfl

@[simp] theorem receive_x (buf : List Byte) : (receive buf s).x = s.x := rfl
@[simp] theorem receive_ctl (buf : List Byte) : (receive buf s).ctl = s.ctl := rfl
@[simp] theorem receive_rx (buf : List Byte) : (receive buf s).rx = buf := rfl
@[simp] theorem receive_tx (buf : List Byte) : (receive buf s).tx = s.tx := rfl
@[simp] theorem receive_fatal (buf : List Byte) : (receive buf s).fatal = s.fatal := rfl
@[simp] theorem receive_params (buf : List Byte) : (receive buf s).params = s.params := rfl
@[simp] theorem receive_env (buf : List Byte) : (receive buf s).env = s.env := rfl
@[simp] theorem receive_trace (buf : List Byte) : (receive buf s).trace = s.trace := rfl

@[simp] theorem stage_x (v : Byte) : (stage v s).x = s.x := rfl
@[simp] theorem stage_ctl (v : Byte) : (stage v s).ctl = s.ctl := rfl
@[simp] theorem stage_rx (v : Byte) : (stage v s).rx = s.rx := rfl
@[simp] theorem stage_tx (v : Byte) : (stage v s).tx = [v] := rfl
@[simp] theorem stage_fatal (v : Byte) : (stage v s).fatal = s.fatal := rfl
@[simp] theorem stage_params (v : Byte) : (stage v s).params = s.params := rfl
@[simp] theorem stage_env (v : Byte) : (stage v s).env = s.env := rfl
@[simp] theorem stage_trace (v : Byte) : (stage v s).trace = s.trace := rfl

@[simp] theorem clearTx_x : (clearTx s).x = s.x := rfl
@[simp] theorem clearTx_ctl : (clearTx s).ctl = s.ctl := rfl
@[simp] theorem clearTx_rx : (clearTx s).rx = s.rx := rfl
@[simp] theorem clearTx_tx : (clearTx s).tx = [] := rfl
@[simp] theorem clearTx_fatal : (clearTx s).fatal = s.fatal := rfl
@[simp] theorem clearTx_params : (clearTx s).params = s.params := rfl
@[simp] theorem clearTx_env : (clearTx s).env = s.env := rfl
@[simp] theorem clearTx_trace : (clearTx s).trace = s.trace := rfl

@[simp] theorem clearBuffers_x : (clearBuffers s).x = s.x := rfl
@[simp] theorem clearBuffers_ctl : (clearBuffers s).ctl = s.ctl := rfl
@[simp] theorem clearBuffers_rx : (clearBuffers s).rx = [] := rfl
@[simp] theorem clearBuffers_tx : (clearBuffers s).tx = [] := rfl
@[simp] theorem clearBuffers_fatal : (clearBuffers s).fatal = s.fatal := rfl
@[simp] theorem clearBuffers_params : (clearBuffers s).params = s.params := rfl
@[simp] theorem clearBuffers_env : (clearBuffers s).env = s.env := rfl
@[simp] theorem clearBuffers_trace : (clearBuffers s).trace = s.trace := rfl

@[simp] theorem setFatal_x : (setFatal s).x = s.x := rfl
@[simp] theorem setFatal_ctl : (setFatal s).ctl = s.ctl := rfl
@[simp] theorem setFatal_rx : (setFatal s).rx = s.rx := rfl
@[simp] theorem setFatal_tx : (setFatal s).tx = s.tx := rfl
@[simp] theorem setFatal_fatal : (setFatal s).fatal = true := rfl
@[simp] theorem setFatal_params : (setFatal s).params = s.params := rfl
@[simp] theorem setFatal_env : (setFatal s).env = s.env := rfl
@[simp] theorem setFatal_trace : (setFatal s).trace = s.trace := rfl

@[simp] theorem sampled_x : (sampled s).x = s.x := rfl
@[simp] theorem sampled_ctl : (sampled s).ctl = s.ctl := rfl
@[simp] theorem sampled_rx : (sampled s).rx = s.rx := rfl
@[simp] theorem sampled_tx : (sampled s).tx = s.tx := rfl
@[simp] theorem sampled_fatal : (sampled s).fatal = s.fatal := rfl
@[simp] theorem sampled_params : (sampled s).params = s.params := rfl
@[simp] theorem sampled_env : (sampled s).env = { s.env with shutdown := s.env.shutdown.advance } := rfl
@[simp] theorem sampled_trace : (sampled s).trace = s.trace := rfl

@[simp] theorem polled_x : (polled s).x = s.x := rfl
@[simp] theorem polled_ctl : (polled s).ctl = s.ctl := rfl
@[simp] theorem polled_rx : (polled s).rx = s.rx := rfl
@[simp] theorem polled_tx : (polled s).tx = s.tx := rfl
@[simp] theorem polled_fatal : (polled s).fatal = s.fatal := rfl
@[simp] theorem polled_params : (polled s).params = s.params := rfl
@[simp] theorem polled_env : (polled s).env = { s.env with poll := s.env.poll.advance } := rfl
@[simp] theorem polled_trace : (polled s).trace = s.trace ++ [.callPoll (pollAnswer s).st (pollAnswer s).count (pollAnswer s).buf] := rfl

@[simp] theorem transmitted_x : (transmitted s).x = s.x := rfl
@[simp] theorem transmitted_ctl : (transmitted s).ctl = s.ctl := rfl
@[simp] theorem transmitted_rx : (transmitted s).rx = s.rx := rfl
@[simp] theorem transmitted_tx : (transmitted s).tx = s.tx := rfl
@[simp] theorem transmitted_fatal : (transmitted s).fatal = s.fatal := rfl
@[simp] theorem transmitted_params : (transmitted s).params = s.params := rfl
@[simp] theorem transmitted_env : (transmitted s).env = { s.env with transmit := s.env.transmit.advance } := rfl
@[simp] theorem transmitted_trace : (transmitted s).trace = s.trace ++ [.callTransmit s.tx (transmitAnswer s)] := rfl

@[simp] theorem enableCalled_x (b : Bool) : (enableCalled b s).x = s.x := rfl
@[simp] theorem enableCalled_ctl (b : Bool) : (enableCalled b s).ctl = s.ctl := rfl
@[simp] theorem enableCalled_rx (b : Bool) : (enableCalled b s).rx = s.rx := rfl
@[simp] theorem enableCalled_tx (b : Bool) : (enableCalled b s).tx = s.tx := rfl
@[simp] theorem enableCalled_fatal (b : Bool) : (enableCalled b s).fatal = s.fatal := rfl
@[simp] theorem enableCalled_params (b : Bool) : (enableCalled b s).params = s.params := rfl
@[simp] theorem enableCalled_env (b : Bool) : (enableCalled b s).env = { s.env with setEnabled := s.env.setEnabled.advance } := rfl
@[simp] theorem enableCalled_trace (b : Bool) : (enableCalled b s).trace = s.trace ++ [.callSetEnabled b s.params.slaveAddr (setEnabledAnswer s)] := rfl

@[simp] theorem endIteration_x : (endIteration s).x = s.x := rfl
@[simp] theorem endIteration_ctl : (endIteration s).ctl = .polling := rfl
@[simp] theorem endIteration_rx : (endIteration s).rx = [] := rfl
@[simp] theorem endIteration_tx : (endIteration s).tx = [] := rfl
@[simp] theorem endIteration_fatal : (endIteration s).fatal = s.fatal := rfl
@[simp] theorem endIteration_params : (endIteration s).params = s.params := rfl
@[simp] theorem endIteration_env : (endIteration s).env = s.env := rfl
@[simp] theorem endIteration_trace : (endIteration s).trace = s.trace := rfl

@[simp] theorem applyReset_x : (applyReset s).x = [] := rfl
@[simp] theorem applyReset_ctl : (applyReset s).ctl = .initializing := rfl
@[simp] theorem applyReset_rx : (applyReset s).rx = [] := rfl
@[simp] theorem applyReset_tx : (applyReset s).tx = [] := rfl
@[simp] theorem applyReset_fatal : (applyReset s).fatal = false := rfl
@[simp] theorem applyReset_params : (applyReset s).params = s.params := rfl
@[simp] theorem applyReset_env : (applyReset s).env = s.env := rfl
@[simp] theorem applyReset_trace : (applyReset s).trace = [] := rfl

/-! ### Raising an error -/

@[simp] theorem raise_x (e : SlaveError) : (raise e s).x = s.x := by
  unfold raise; split <;> rfl

@[simp] theorem raise_ctl (e : SlaveError) : (raise e s).ctl = errorCtl e s.ctl := by
  unfold raise; split <;> rfl

@[simp] theorem raise_rx (e : SlaveError) : (raise e s).rx = s.rx := by
  unfold raise; split <;> rfl

@[simp] theorem raise_tx (e : SlaveError) : (raise e s).tx = s.tx := by
  unfold raise; split <;> rfl

@[simp] theorem raise_params (e : SlaveError) : (raise e s).params = s.params := by
  unfold raise; split <;> rfl

@[simp] theorem raise_env (e : SlaveError) : (raise e s).env = s.env := by
  unfold raise; split <;> rfl

@[simp] theorem raise_trace (e : SlaveError) : (raise e s).trace = s.trace ++ [.report e] := by
  unfold raise; split <;> rfl

/-- Only a failed startup enable sets `fatal`. -/
@[simp] theorem raise_fatal_enable (st : Status) : (raise (.transferFailure .enable st) s).fatal = true := rfl

/-- Every other error leaves `fatal`. -/
theorem raise_fatal_other (e : SlaveError) (h : ∀ st, e ≠ .transferFailure .enable st) :
    (raise e s).fatal = s.fatal := by
  unfold raise
  split
  · exact absurd rfl (h _)
  · rfl

@[simp] theorem raise_fatal_outOfRange (op : AccessOp) (i : Byte) :
    (raise (.outOfRange op i) s).fatal = s.fatal := rfl

@[simp] theorem raise_fatal_malformed (n : Nat) : (raise (.malformedFrame n) s).fatal = s.fatal := rfl

@[simp] theorem raise_fatal_poll (st : Status) : (raise (.transferFailure .poll st) s).fatal = s.fatal := rfl

@[simp] theorem raise_fatal_transmit (st : Status) : (raise (.transferFailure .transmit st) s).fatal = s.fatal := rfl

@[simp] theorem raise_fatal_disable (st : Status) : (raise (.transferFailure .disable st) s).fatal = s.fatal := rfl

/-! ### The environment's answers -/

/-- A poll's answer does not depend on the sampling of the shutdown signal. -/
@[simp] theorem pollAnswer_sampled : pollAnswer (sampled s) = pollAnswer s := rfl

/-- An answer depends on its channel alone. -/
theorem transmitAnswer_congr (t : State) (h : t.env.transmit = s.env.transmit) :
    transmitAnswer t = transmitAnswer s := by
  unfold transmitAnswer; rw [h]

/-- An answer depends on its channel alone. -/
theorem setEnabledAnswer_congr (t : State) (h : t.env.setEnabled = s.env.setEnabled) :
    setEnabledAnswer t = setEnabledAnswer s := by
  unfold setEnabledAnswer; rw [h]

/-- Taking an answer leaves the source. -/
@[simp] theorem Channel.advance_source {α : Type} (c : Channel α) : c.advance.source = c.source := rfl

/-- Taking an answer counts it. -/
@[simp] theorem Channel.advance_taken {α : Type} (c : Channel α) : c.advance.taken = c.taken + 1 := rfl

/-- Taking an answer uses up the first one laid down. -/
@[simp] theorem Channel.advance_queued {α : Type} (c : Channel α) : c.advance.queued = c.queued.tail := rfl

/-- A snapshot reads the bank and N alone. -/
theorem snapshot_congr (t : State) (hx : t.x = s.x) (hp : t.params = s.params) : snapshot t = snapshot s := by
  unfold snapshot; rw [hx, hp]

end Sys2Proof.Machine
end

