-- ==== Sys2Proof/Laws/Ops.lean ====
section
/-! SUPPORT. One lemma per shared operation that says all it can do, and the effect of each service routine case by case, so
that no later proof unfolds them. -/

namespace Sys2Proof.Machine

open Sys2Proof

/-- An event happens exactly where its requirement holds, and then has its effect. -/
theorem whenIn_next {required : Ctl} {effect : State → State} {s t : State} :
    whenIn required effect s = .next t ↔ s.params.legal = true ∧ s.ctl = required ∧ t = effect s := by
  unfold whenIn
  split
  · next hl =>
    split
    · next hc => simp [hl, hc, eq_comm]
    · next hc => simp [hc]
  · next hl => simp [hl]

/-- Where its requirement holds, an event has its effect. -/
theorem whenIn_of {required : Ctl} {s : State} (effect : State → State) (hl : s.params.legal = true)
    (hc : s.ctl = required) : whenIn required effect s = .next (effect s) :=
  whenIn_next.mpr ⟨hl, hc, rfl⟩

/-- An event of an instance whose N is not admitted is refused. -/
theorem whenIn_illegal {required : Ctl} {s : State} (effect : State → State) (hl : s.params.legal ≠ true) :
    whenIn required effect s = .refused .illegalParameters := by
  unfold whenIn; rw [if_neg hl]

/-- An event in a controller state other than the required one is refused. -/
theorem whenIn_elsewhere {required : Ctl} {s : State} (effect : State → State) (hl : s.params.legal = true)
    (hc : s.ctl ≠ required) : whenIn required effect s = .refused .eventNotPossible := by
  unfold whenIn; rw [if_pos hl, if_neg hc]

theorem inRange_iff {n : Nat} {index : Byte} : inRange n index = true ↔ index.toNat < n :=
  decide_eq_true_iff

/-- The checked read, in range. -/
theorem memRead_inRange {index : Byte} {s : State} (h : index.toNat < s.params.n) :
    memRead index s = .ok (s.x.read index.toNat) := by
  unfold memRead; rw [if_pos (inRange_iff.mpr h)]; rfl

/-- The checked read, out of range. -/
theorem memRead_outOfRange {index : Byte} {s : State} (h : s.params.n ≤ index.toNat) :
    memRead index s = .error (.outOfRange .read index) := by
  unfold memRead; rw [if_neg (by rw [inRange_iff]; omega)]

/-- The checked write, in range. -/
theorem memWrite_inRange {index : Byte} (value : Byte) {s : State} (h : index.toNat < s.params.n) :
    memWrite index value s = .ok { s with x := s.x.write index.toNat value } := by
  unfold memWrite; rw [if_pos (inRange_iff.mpr h)]; rfl

/-- The checked write, out of range. -/
theorem memWrite_outOfRange {index : Byte} (value : Byte) {s : State} (h : s.params.n ≤ index.toNat) :
    memWrite index value s = .error (.outOfRange .write index) := by
  unfold memWrite; rw [if_neg (by rw [inRange_iff]; omega)]

/-- A read frame out of range: the error, and nothing else. -/
theorem serviceRead_outOfRange {index : Byte} {s : State} (h : s.params.n ≤ index.toNat) :
    serviceRead index s = raise (.outOfRange .read index) s := by
  unfold serviceRead; rw [memRead_outOfRange h]

/-- The state of a read frame in range once its byte is handed over and the buffers are cleared. -/
def readSent (index : Byte) (s : State) : State :=
  clearBuffers (transmitted (stage (s.x.read index.toNat) (setCtl .servicingRead s)))

/-- A read frame in range: the byte is handed over, then a snapshot or the report of the failed transmit. -/
theorem serviceRead_inRange {index : Byte} {s : State} (h : index.toNat < s.params.n) :
    serviceRead index s = match transmitAnswer s with
      | .ok => emit (.snapshot (snapshot s)) (readSent index s)
      | .err c => raise (.transferFailure .transmit (.err c)) (readSent index s) := by
  unfold serviceRead
  rw [memRead_inRange h]
  rfl

/-- A write frame out of range: the error, and nothing else. -/
theorem serviceWrite_outOfRange {index : Byte} (value : Byte) {s : State} (h : s.params.n ≤ index.toNat) :
    serviceWrite index value s = raise (.outOfRange .write index) s := by
  unfold serviceWrite; rw [memWrite_outOfRange value h]

/-- The state of a write frame in range once the register is written. -/
def writeDone (index value : Byte) (s : State) : State :=
  setCtl .servicingWrite { s with x := s.x.write index.toNat value }

/-- A write frame in range: the register is written, then a snapshot of the bank after the write. -/
theorem serviceWrite_inRange {index : Byte} (value : Byte) {s : State} (h : index.toNat < s.params.n) :
    serviceWrite index value s = emit (.snapshot (snapshot (writeDone index value s))) (writeDone index value s) := by
  unfold serviceWrite; rw [memWrite_inRange value h]; rfl

end Sys2Proof.Machine
end

