-- ==== Sys2Proof/Laws/PerInstr.lean ====
section
/-! SUPPORT. Facts about every instruction as syntax, one lemma per constructor. -/

namespace Sys2Proof.Laws.FrameLength

open Sys2Proof

/-- The length in bytes of an instruction's frame, as the format table R61 gives it; none for an event. -/
def formatLength : Instr → Option Nat
  | .idle => some 0
  | .rd _ => some 1
  | .wr _ _ => some 2
  | .bad n => some n
  | .start => none
  | .stop => none

/-- The encoder's frame has the length of the instruction's format, and that length selects the class (R60, R61). -/
def Statement (i : Instr) : Prop := (encode i).map List.length = formatLength i ∧ ((encode i).isSome ↔ i.isFrame = true)

theorem idle : Statement .idle := by simp [Statement, encode, formatLength, Instr.isFrame]

theorem rd (index : Byte) : Statement (.rd index) := by simp [Statement, encode, formatLength, Instr.isFrame]

theorem wr (index value : Byte) : Statement (.wr index value) := by
  simp [Statement, encode, formatLength, Instr.isFrame]

theorem bad (n : Nat) : Statement (.bad n) := by simp [Statement, encode, formatLength, Instr.isFrame]

theorem start : Statement .start := by simp [Statement, encode, formatLength, Instr.isFrame]

theorem stop : Statement .stop := by simp [Statement, encode, formatLength, Instr.isFrame]

end Sys2Proof.Laws.FrameLength
end

