-- ==== Sys2Proof/Laws/Step.lean ====
section
/-! SUPPORT. What a step that answers a next state can have been, said once: the inversion of `step`, from which later proofs
start. -/

namespace Sys2Proof.Machine

open Sys2Proof

/-- The state in which a delivered frame's meaning runs: the signal sampled, the poll made, the bytes received. -/
def fetched (s : State) : State := receive (pollAnswer s).buf (polled (sampled s))

/-- The end of an iteration after a frame's meaning, where the meaning answers a next state. -/
theorem thenEndIteration_next {o : Host.Outcome State Fault Refusal} {t : State} :
    thenEndIteration o = .next t ↔ ∃ u, o = .next u ∧ t = endIteration u := by
  cases o <;> simp [thenEndIteration, eq_comm]

/-- What follows a failed poll. -/
theorem afterPoll_failed {a : PollAnswer} {c : Nat} (s : State) (h : a.st = .err c) :
    afterPoll a s = .next (endIteration (pollFailed (.err c) s)) := by
  unfold afterPoll; rw [h]

/-- What follows a successful poll whose frame decodes. -/
theorem afterPoll_decoded {a : PollAnswer} {i : Instr} (s : State) (h : a.st = .ok)
    (hd : decode a.count a.buf = .ok i) : afterPoll a s = thenEndIteration (exec i (receive a.buf s)) := by
  unfold afterPoll; rw [h]; simp only [hd]

/-- What a poll iteration's step is, where no shutdown is seen. -/
theorem step_polling {s : State} (hl : s.params.legal = true) (hc : s.ctl = .polling)
    (hs : shutdownLevel s = false) : step s = afterPoll (pollAnswer s) (polled (sampled s)) := by
  unfold step stepFrom iterate; simp only [hl, if_true, hc, hs]; rfl

/-- What a step is where the shutdown signal is seen. -/
theorem step_shutdown {s : State} (hl : s.params.legal = true) (hc : s.ctl = .polling)
    (hs : shutdownLevel s = true) : step s = exec .stop (sampled s) := by
  unfold step stepFrom iterate; simp only [hl, if_true, hc, hs]

/-- What the step after reset is. -/
theorem step_initializing {s : State} (hl : s.params.legal = true) (hc : s.ctl = .initializing) :
    step s = exec .start s := by
  unfold step stepFrom; simp only [hl, if_true, hc]

/-- The ways a step answers a next state: the startup step, the closing step, a failed poll, one case per frame class, and
the terminal state `Closing`. Each with all its guards. -/
inductive StepCase (s : State) : State → Prop
  | started (hc : s.ctl = .initializing) : StepCase s (startUp s)
  | closed (hc : s.ctl = .polling) (hs : shutdownLevel s = true) : StepCase s (close (sampled s))
  | pollFailed (hc : s.ctl = .polling) (hs : shutdownLevel s = false) (c : Nat)
      (ha : (pollAnswer s).st = .err c) :
      StepCase s (endIteration (raise (.transferFailure .poll (.err c)) (polled (sampled s))))
  | idle (hc : s.ctl = .polling) (hs : shutdownLevel s = false)
      (ha : pollAnswer s = ⟨.ok, []⟩) : StepCase s (endIteration (serviceIdle (fetched s)))
  | rd (hc : s.ctl = .polling) (hs : shutdownLevel s = false) (index : Byte)
      (ha : pollAnswer s = ⟨.ok, [index]⟩) : StepCase s (endIteration (serviceRead index (fetched s)))
  | wr (hc : s.ctl = .polling) (hs : shutdownLevel s = false) (index value : Byte)
      (ha : pollAnswer s = ⟨.ok, [index, value]⟩) :
      StepCase s (endIteration (serviceWrite index value (fetched s)))
  | bad (hc : s.ctl = .polling) (hs : shutdownLevel s = false) (b0 b1 b2 : Byte) (rest : List Byte)
      (ha : pollAnswer s = ⟨.ok, b0 :: b1 :: b2 :: rest⟩) :
      StepCase s (endIteration (raise (.malformedFrame (rest.length + 3)) (fetched s)))
  | stayed (hc : s.ctl = .closing) : StepCase s s

/-- The guards of a frame's meaning hold once it is fetched. -/
theorem fetched_guards {s : State} (hl : s.params.legal = true) (hc : s.ctl = .polling) :
    (fetched s).params.legal = true ∧ (fetched s).ctl = .polling := ⟨hl, hc⟩

/-- Inversion of `step` from `Polling` with no shutdown: the step always answers a next state, and it is one of the cases. -/
theorem step_polling_cases {s : State} (hl : s.params.legal = true) (hc : s.ctl = .polling)
    (hs : shutdownLevel s = false) : ∃ t, step s = .next t ∧ StepCase s t := by
  rw [step_polling hl hc hs]
  rcases ha : pollAnswer s with ⟨st, buf⟩
  have hf := fetched_guards hl hc
  have hfe : fetched s = receive buf (polled (sampled s)) := by unfold fetched; rw [ha]
  cases st with
  | err c =>
    exact ⟨_, afterPoll_failed (a := ⟨.err c, buf⟩) _ rfl, .pollFailed hc hs c (by rw [ha])⟩
  | ok =>
    rw [afterPoll_decoded (a := ⟨.ok, buf⟩) _ rfl (decode_frame buf), ← hfe]
    match buf, ha with
    | [], ha => exact ⟨_, by simp only [exec, execIdle, whenIn_of _ hf.1 hf.2, thenEndIteration], .idle hc hs ha⟩
    | [i], ha => exact ⟨_, by simp only [exec, execRd, whenIn_of _ hf.1 hf.2, thenEndIteration], .rd hc hs i ha⟩
    | [i, v], ha => exact ⟨_, by simp only [exec, execWr, whenIn_of _ hf.1 hf.2, thenEndIteration], .wr hc hs i v ha⟩
    | b0 :: b1 :: b2 :: rest, ha =>
      exact ⟨_, by simp only [exec, execBad, whenIn_of _ hf.1 hf.2, thenEndIteration], .bad hc hs b0 b1 b2 rest ha⟩

/-- Inversion of `step`: if it answers a next state then N is admitted and the step was one of the cases. -/
theorem step_next_cases {s t : State} (h : step s = .next t) : s.params.legal = true ∧ StepCase s t := by
  by_cases hl : s.params.legal = true
  · refine ⟨hl, ?_⟩
    cases hc : s.ctl with
    | initializing =>
      rw [step_initializing hl hc] at h
      obtain ⟨-, -, rfl⟩ := whenIn_next.mp (h : whenIn .initializing startUp s = .next t)
      exact .started hc
    | polling =>
      cases hs : shutdownLevel s with
      | true =>
        rw [step_shutdown hl hc hs] at h
        obtain ⟨-, -, rfl⟩ := whenIn_next.mp (h : whenIn .polling close (sampled s) = .next t)
        exact .closed hc hs
      | false =>
        obtain ⟨u, hu, hcase⟩ := step_polling_cases hl hc hs
        rw [hu] at h
        cases h
        exact hcase
    | closing =>
      unfold step stepFrom at h
      simp only [hl, if_true, hc] at h
      cases h
      exact .stayed hc
    | _ => unfold step stepFrom at h; simp [hl, hc] at h
  · unfold step stepFrom at h
    simp [hl] at h

end Sys2Proof.Machine
end

