-- ==== Sys2Proof/Laws/Run.lean ====
section
/-! SUPPORT. Runs of the machine, step by step, in terms of `step`. -/

namespace Sys2Proof.Machine

open Sys2Proof

/-- A run of no steps. -/
@[simp] theorem run_zero (s : State) : Host.Core.run core 0 s = .next s := rfl

/-- A run whose first step answers a next state, of any machine. -/
theorem coreRun_succ_next (M : Host.Core) {s u : M.State} (k : Nat) (h : M.step s = .next u) :
    M.run (k + 1) s = M.run k u := by
  rw [Host.Core.run, h]

/-- A run whose first step stops with a fault, of any machine. -/
theorem coreRun_succ_fault (M : Host.Core) {s : M.State} {f : M.Fault} (k : Nat) (h : M.step s = .fault f) :
    M.run (k + 1) s = .fault f := by
  rw [Host.Core.run, h]

/-- A run whose first step is refused, of any machine. -/
theorem coreRun_succ_refused (M : Host.Core) {s : M.State} {r : M.Refusal} (k : Nat) (h : M.step s = .refused r) :
    M.run (k + 1) s = .refused r := by
  rw [Host.Core.run, h]

/-- A run whose first step answers a next state. -/
theorem run_succ_of_next {s u : State} (k : Nat) (h : step s = .next u) :
    Host.Core.run core (k + 1) s = Host.Core.run core k u :=
  coreRun_succ_next core k h

/-- A run whose first step stops with a fault. -/
theorem run_succ_of_fault {s : State} {f : Fault} (k : Nat) (h : step s = .fault f) :
    Host.Core.run core (k + 1) s = .fault f :=
  coreRun_succ_fault core k h

/-- A run of one step more that answers a next state made its first step. -/
theorem run_succ_next {s t : State} {k : Nat} (h : Host.Core.run core (k + 1) s = .next t) :
    ∃ u, step s = .next u ∧ Host.Core.run core k u = .next t := by
  cases hs : step s with
  | next u => exact ⟨u, rfl, (run_succ_of_next k hs).symm.trans h⟩
  | fault f => exact nomatch (run_succ_of_fault k hs).symm.trans h
  | refused r => exact nomatch (coreRun_succ_refused core k hs).symm.trans h

end Sys2Proof.Machine
end

