-- ==== Sys2Proof/Tests/Slice0.lean ====
section
/-! SUPPORT. Tests of the model against spec/95_test_vectors.md (each names its row), smoke tests of WellFormed, and for every
statement with hypotheses a concrete state that meets them all. -/

namespace Sys2Proof.Tests

open Sys2Proof Sys2Proof.Machine

/-! ### Small states -/

/-- An instance of n registers with `SLAVE_ADDR` 0x42. -/
def params (n : Nat) : Params := ⟨n, 0x42, 1000, true, ⟨false, 0⟩⟩

/-- An environment with these answers laid down. -/
def env (shutdown : List Bool) (poll : List PollAnswer) (transmit setEnabled : List Status) : Env :=
  ⟨⟨shutdown, 0, 0⟩, ⟨poll, 0, 0⟩, ⟨transmit, 0, 0⟩, ⟨setEnabled, 0, 0⟩⟩

/-- The state after a reset. -/
def fresh (n : Nat) (setEnabled : List Status) : State := State.resetIn (params n) (env [] [] [] setEnabled)

/-- The "polling reset state" of 95_test_vectors.md, with the trace empty and an iteration's answers laid down. -/
def polling (n : Nat) (answers : List PollAnswer) (transmit : List Status) : State :=
  { State.resetIn (params n) (env (answers.map fun _ => false) answers transmit []) with ctl := .polling }

/-- The same at a sampling point where the shutdown signal is seen. -/
def closing (n : Nat) (disable : Status) : State :=
  { State.resetIn (params n) (env [true] [] [] [disable]) with ctl := .polling }

/-- What is tested of a next state: its controller state, its `fatal` bit, its new events and its bank. -/
def leads (s : State) (ctl : Ctl) (fatal : Bool) (events : List Event) (bank : List Byte) : Bool :=
  match step s with
  | .next t =>
    decide (t.ctl = ctl) && decide (t.fatal = fatal) && decide (t.trace = s.trace ++ events) && decide (t.rx = []) &&
      decide (t.tx = []) && decide ((snapshot t).map Prod.snd = bank)
  | .fault _ => false
  | .refused _ => false

/-- A snapshot abbreviated as the list of its values. -/
def shot (bank : List Byte) : Event := .snapshot ((List.range bank.length).zip bank)

def bank8 : List Byte := [1#8, 2#8, 3#8, 4#8, 5#8, 6#8, 7#8, 8#8]

/-! ### WellFormed -/

/-- A malformed frame has three bytes or more (R65). -/
theorem test_illformed_bad : (Instr.bad 2).wellFormed = false := by decide

theorem test_wellformed_smallest_bad : (Instr.bad 3).wellFormed = true := by decide

/-! ### Decoder: 95_test_vectors.md section 2.2 and the programs' bits -/

/-- DT1, DT2: the contents are ignored. -/
theorem test_decode_idle : decode 0 [0xFF#8, 0xFF#8] = .ok .idle := rfl

/-- Program A step 1: `00000011`. -/
theorem test_decode_rd : decodeTableWord 8 0b00000011 = some (.rd 3#8) := by decide

/-- Program A step 2: `00000010 01011010`, byte 0 first. -/
theorem test_decode_wr : decodeTableWord 16 0b0101101000000010 = some (.wr 2#8 0x5A#8) := by decide

/-- DT9. -/
theorem test_decode_bad : decodeTableWord 24 0b000000000101101000000010 = some (.bad 3) := by decide

/-- DT7: no range check in the decoder. -/
theorem test_decode_no_range_check : decode 2 [0xFF#8, 0x00#8] = .ok (.wr 255#8 0#8) := rfl

/-- DT12: no upper bound. -/
theorem test_decode_million : decode 1000000 [] = .ok (.bad 1000000) := rfl

/-! ### The bank: section 2.1 -/

/-- RB10: the last write wins, and the data is that of one write. -/
theorem test_write_twice : (Memory.write (Memory.write [] 2 0x11#8) 2 0x22#8) = [(2, 0x22#8)] := by decide

/-- RB8 read as data: writing the reset value back gives the reset bank. -/
theorem test_write_reset_value_unlists : (Memory.write (Memory.write [] 3 0x99#8) 3 0x04#8) = [] := by decide

/-- NV3, NV4: N = 255. -/
theorem test_last_register_of_255 :
    memRead 254#8 (polling 255 [] []) = .ok 255#8 ∧
    memRead 255#8 (polling 255 [] []) = .error (.outOfRange .read 255#8) := by
  constructor <;> rfl

/-- NV6: N = 0 and N = 256 are refused. -/
theorem test_construct_refused : construct (params 0) Env.fresh = none ∧ construct (params 256) Env.fresh = none := by
  constructor <;> rfl

/-! ### One step: sections 1.2, 2.3 and 2.4 -/

/-- IT1, Scenario 6. -/
theorem test_idle : leads (polling 8 [⟨.ok, []⟩] []) .polling false [.callPoll .ok 0 [], .backoff] bank8 = true := by
  decide

/-- IT3: the last valid index. -/
theorem test_rd : leads (polling 8 [⟨.ok, [7#8]⟩] [.ok]) .polling false
    [.callPoll .ok 1 [7#8], .callTransmit [8#8] .ok, shot bank8] bank8 = true := by decide

/-- IT6: a failed transmit, no snapshot. -/
theorem test_rd_transmit_fails : leads (polling 8 [⟨.ok, [3#8]⟩] [.err 5]) .polling false
    [.callPoll .ok 1 [3#8], .callTransmit [4#8] (.err 5), .report (.transferFailure .transmit (.err 5))] bank8 = true := by
  decide

/-- Scenario 3, first half. -/
theorem test_wr : leads (polling 8 [⟨.ok, [2#8, 0x5A#8]⟩] []) .polling false
    [.callPoll .ok 2 [2#8, 0x5A#8], shot [1#8, 2#8, 0x5A#8, 4#8, 5#8, 6#8, 7#8, 8#8]]
    [1#8, 2#8, 0x5A#8, 4#8, 5#8, 6#8, 7#8, 8#8] = true := by decide

/-- IT9: the first invalid index. -/
theorem test_wr_out_of_range : leads (polling 8 [⟨.ok, [8#8, 0xFF#8]⟩] []) .polling false
    [.callPoll .ok 2 [8#8, 0xFF#8], .report (.outOfRange .write 8#8)] bank8 = true := by decide

/-- IT11: a three-byte frame does not write. -/
theorem test_bad : leads (polling 8 [⟨.ok, [2#8, 0x5A#8, 0#8]⟩] []) .polling false
    [.callPoll .ok 3 [2#8, 0x5A#8, 0#8], .report (.malformedFrame 3)] bank8 = true := by decide

/-- IT12: the count decides first, not the index. -/
theorem test_bad_not_out_of_range : leads (polling 8 [⟨.ok, [9#8, 9#8, 9#8, 9#8, 9#8]⟩] []) .polling false
    [.callPoll .ok 5 [9#8, 9#8, 9#8, 9#8, 9#8], .report (.malformedFrame 5)] bank8 = true := by decide

/-- IT13: a failed poll with two bytes writes nothing and takes no backoff. -/
theorem test_failed_poll : leads (polling 8 [⟨.err 5, [0#8, 0xFF#8]⟩] []) .polling false
    [.callPoll (.err 5) 2 [0#8, 0xFF#8], .report (.transferFailure .poll (.err 5))] bank8 = true := by decide

/-- LC1. -/
theorem test_start : leads (fresh 8 [.ok]) .polling false [.callSetEnabled true 0x42 .ok] bank8 = true := by decide

/-- LC2. -/
theorem test_start_fails : leads (fresh 8 [.err 5]) .failed true
    [.callSetEnabled true 0x42 (.err 5), .report (.transferFailure .enable (.err 5))] bank8 = true := by decide

/-- LC3. -/
theorem test_stop : leads (closing 8 .ok) .closing false [.callSetEnabled false 0x42 .ok] bank8 = true := by decide

/-- LC4. -/
theorem test_stop_fails : leads (closing 8 (.err 5)) .closing false
    [.callSetEnabled false 0x42 (.err 5), .report (.transferFailure .disable (.err 5))] bank8 = true := by decide

/-- The frame the host lays down runs as the first step after reset, whatever the OPEN parameters are. -/
theorem test_placed_frame_runs :
    (match step (State.reset.withFetchWord 16 0x5A02) with
      | .next t => decide (t.x = [(2, 0x5A#8)])
      | .fault _ => false
      | .refused _ => false) = true := by decide

/-! ### Witnesses: a concrete state and operands that meet each statement's hypotheses -/

theorem witness_DecodeSelectsByCountAlone : 3 ≤ 3 := by decide

theorem witness_DecodeIsTotalAndAnswersFrames : (2 ≤ [1#8, 2#8].length ∨ 3 ≤ 2) ∧ (3 ≤ ([] : List Byte).length ∨ 3 ≤ 3) := by
  decide

theorem witness_DecodeRefusesExactlyShortBuffers : (2 ≤ 2 ∧ [1#8].length < 2) ∧
    ∃ e, decode 1 [] = .error e := ⟨by decide, _, rfl⟩

theorem witness_DecodeOfEncodeIsTheInstruction :
    (Instr.bad 3).wellFormed = true ∧ encode (.bad 3) = some [0#8, 0#8, 0#8] ∧ encode (.wr 255#8 0#8) = some [255#8, 0#8] ∧
      encode .start = none := by decide

theorem witness_EncodeOfDecodeIsTheFrame :
    decode [1#8, 2#8].length [1#8, 2#8] = .ok (.wr 1#8 2#8) ∧ [1#8, 2#8].length < 3 ∧
      decode [1#8, 2#8, 3#8].length [1#8, 2#8, 3#8] = .ok (.bad 3) := ⟨rfl, by decide, rfl⟩

theorem witness_CheckedReadFailsExactlyOutOfRange : ∃ (s : State) (i j : Byte), s.params.n ≤ i.toNat ∧
    j.toNat < s.params.n ∧ s.params.legal = true := ⟨polling 8 [] [], 8#8, 7#8, by decide⟩

theorem witness_CheckedWriteChangesOneRegister : ∃ (s : State) (i j : Byte), s.params.n ≤ i.toNat ∧
    j.toNat < s.params.n := ⟨polling 8 [] [], 8#8, 7#8, by decide⟩

theorem witness_BankLaws : ∃ (s : State) (i j : Byte), s.params.n ≤ i.toNat ∧ j.toNat < s.params.n :=
  ⟨polling 255 [] [], 255#8, 254#8, by decide⟩

theorem witness_AddressSpaceIsZeroToNMinusOne : ∃ (s : State) (i : Byte), s.params.legal = true ∧ s.params.n ≤ i.toNat :=
  ⟨polling 255 [] [], 255#8, by decide⟩

theorem witness_SnapshotListsEveryRegisterInOrder : 7 < (polling 8 [] []).params.n := by decide

theorem witness_CanonicalBanksThatReadAlikeAreEqual : ∃ m m' : Memory, Memory.wf 8 m ∧ Memory.wf 8 m' ∧ m ≠ [] ∧
    ∀ a, a < 8 → m.read a = m'.read a :=
  ⟨[(0, 0#8), (7, 0#8)], Memory.write [(0, 0#8)] 7 0#8, by decide, by decide, by decide, by decide⟩

theorem witness_WritesSettleByRegister : Memory.wf 8 [(3, 0#8)] ∧ 0 < 8 ∧ 7 < 8 ∧ (0 : Nat) ≠ 7 := by decide

theorem witness_IdlePollOnlyBacksOff : ∃ s : State, s.params.legal = true ∧ s.ctl = .polling ∧ s.rx = [] ∧ s.tx = [] ∧
    shutdownLevel s = false ∧ pollAnswer s = ⟨.ok, []⟩ := ⟨polling 8 [⟨.ok, []⟩] [], by decide⟩

/-- Both answers of a transmit. -/
theorem witness_ReadInRangeSendsTheRegister : ∃ (s u : State) (i : Byte), s.params.legal = true ∧ s.ctl = .polling ∧
    i.toNat < s.params.n ∧ transmitAnswer s = .ok ∧ u.params.legal = true ∧ u.ctl = .polling ∧ i.toNat < u.params.n ∧
    transmitAnswer u = .err 5 := ⟨polling 8 [] [.ok], polling 8 [] [.err 5], 7#8, by decide⟩

theorem witness_ReadOutOfRangeSendsNothing : ∃ (s : State) (i : Byte), s.params.legal = true ∧ s.ctl = .polling ∧
    s.params.n ≤ i.toNat := ⟨polling 8 [] [], 8#8, by decide⟩

theorem witness_WriteInRangeStoresTheValue : ∃ (s : State) (i : Byte), s.params.legal = true ∧ s.ctl = .polling ∧
    i.toNat < s.params.n := ⟨polling 8 [] [], 7#8, by decide⟩

theorem witness_WriteOutOfRangeChangesNothing : ∃ (s : State) (i : Byte), s.params.legal = true ∧ s.ctl = .polling ∧
    s.params.n ≤ i.toNat := ⟨polling 255 [] [], 255#8, by decide⟩

theorem witness_MalformedFrameOnlyWarns : ∃ (s : State) (n : Nat), s.params.legal = true ∧ s.ctl = .polling ∧ 3 ≤ n :=
  ⟨polling 8 [] [], 3, by decide⟩

theorem witness_StartEnablesThePort : ∃ s u : State, s.params.legal = true ∧ s.ctl = .initializing ∧
    setEnabledAnswer s = .ok ∧ u.params.legal = true ∧ u.ctl = .initializing ∧ setEnabledAnswer u = .err 5 :=
  ⟨fresh 8 [.ok], fresh 8 [.err 5], by decide⟩

theorem witness_StopDisablesThePort : ∃ s u : State, s.params.legal = true ∧ s.ctl = .polling ∧
    setEnabledAnswer s = .ok ∧ u.params.legal = true ∧ u.ctl = .polling ∧ setEnabledAnswer u = .err 5 :=
  ⟨closing 8 .ok, closing 8 (.err 5), by decide⟩

theorem witness_EventsOutsideTheirStateAreRefused : ∃ s u : State, s.params.legal = true ∧ s.ctl ≠ .polling ∧
    (Instr.rd 0#8).isFrame = true ∧ u.params.legal = true ∧ u.ctl ≠ .initializing :=
  ⟨fresh 8 [], polling 8 [] [], by decide⟩

theorem witness_OnlyOneTo255RegistersAreAdmitted : (fresh 0 []).params.n = 0 ∧ 256 ≤ (fresh 256 []).params.n ∧
    1 ≤ (params 1).n ∧ (params 255).n ≤ 255 := by decide

theorem witness_NonStoringInstructionsKeepTheBank : ∃ s t u v : State,
    (∀ index value, Instr.rd 7#8 ≠ .wr index value) ∧ exec (.rd 7#8) s = .next t ∧ exec .start u = .next v :=
  ⟨polling 8 [] [.ok], _, fresh 8 [.ok], _, by intros; simp, rfl, rfl⟩

theorem witness_WriteFrameKeepsAllButItsRegister : ∃ s t u : State, exec (.wr 7#8 0#8) s = .next t ∧
    exec (.wr 8#8 0#8) s = .next u ∧ inRange s.params.n 8#8 = false := ⟨polling 8 [] [], _, _, rfl, rfl, rfl⟩

theorem witness_StepRunsTheDecodedFrame : ∃ s : State, s.params.legal = true ∧ s.ctl = .polling ∧
    shutdownLevel s = false ∧ pollAnswer s = ⟨.ok, [3#8]⟩ ∧ decode [3#8].length [3#8] = .ok (.rd 3#8) :=
  ⟨polling 8 [⟨.ok, [3#8]⟩] [], by decide, by decide, by decide, by decide, rfl⟩

theorem witness_StepRunsTheLifecycleEvents : ∃ s u : State, s.params.legal = true ∧ s.ctl = .initializing ∧
    u.params.legal = true ∧ u.ctl = .polling ∧ shutdownLevel u = true := ⟨fresh 8 [], closing 8 .ok, by decide⟩

theorem witness_PlacedFrameRunsNext : State.reset.params.legal = true ∧ decodeTableWord 16 0x5A02 = some (.wr 2#8 0x5A#8) :=
  ⟨rfl, by decide⟩

theorem witness_FailedPollIsOnlyReported : ∃ s : State, s.params.legal = true ∧ s.ctl = .polling ∧
    shutdownLevel s = false ∧ pollAnswer s = ⟨.err 5, [0#8, 255#8]⟩ :=
  ⟨polling 8 [⟨.err 5, [0#8, 255#8]⟩] [], by decide⟩

/-- For `OutOfRangeReportedExactlyForBadIndex`: both kinds of bad frame. -/
theorem witness_OutOfRangeReportedExactlyForBadIndex : ∃ s u : State, s.params.legal = true ∧ s.ctl = .polling ∧
    shutdownLevel s = false ∧ pollAnswer s = ⟨.ok, [8#8]⟩ ∧ s.params.n ≤ (8#8).toNat ∧ u.params.legal = true ∧
    u.ctl = .polling ∧ shutdownLevel u = false ∧ pollAnswer u = ⟨.ok, [8#8, 0#8]⟩ :=
  ⟨polling 8 [⟨.ok, [8#8]⟩] [], polling 8 [⟨.ok, [8#8, 0#8]⟩] [], by decide⟩

theorem witness_MalformedReportedExactlyForThreeBytesOrMore : ∃ s : State, s.params.legal = true ∧ s.ctl = .polling ∧
    shutdownLevel s = false ∧ (pollAnswer s).st = .ok ∧ (pollAnswer s).count = 3 :=
  ⟨polling 8 [⟨.ok, [1#8, 2#8, 3#8]⟩] [], by decide⟩

theorem witness_IterationFollowsTheEventTable : ∃ s : State, s.params.legal = true ∧ s.ctl = .polling ∧
    shutdownLevel s = false := ⟨polling 8 [⟨.ok, []⟩] [], by decide⟩

/-- For every statement about a step from `Polling` that answers a next state. -/
theorem witness_IterationEmitsAtMostOneOfEach : ∃ s t : State, s.ctl = .polling ∧ step s = .next t :=
  ⟨polling 8 [⟨.ok, [2#8, 0x5A#8]⟩] [], _, rfl, rfl⟩

/-- An in-range write, an out-of-range write at the boundary, a failed poll of two bytes, and a seen shutdown. -/
theorem witness_IterationSideEffectsAreBounded :
    (∃ s t : State, s.ctl = .polling ∧ step s = .next t ∧ shutdownLevel s = false ∧
      pollAnswer s = ⟨.ok, [7#8, 0#8]⟩ ∧ inRange s.params.n 7#8 = true) ∧
    (∃ s t : State, s.ctl = .polling ∧ step s = .next t ∧ pollAnswer s = ⟨.ok, [8#8, 0#8]⟩ ∧
      inRange s.params.n 8#8 = false) ∧
    (∃ s t : State, s.ctl = .polling ∧ step s = .next t ∧ pollAnswer s = ⟨.err 5, [0#8, 0#8]⟩) ∧
    ∃ s t : State, s.ctl = .polling ∧ step s = .next t ∧ shutdownLevel s = true :=
  ⟨⟨polling 8 [⟨.ok, [7#8, 0#8]⟩] [], _, rfl, rfl, rfl, rfl, rfl⟩,
    ⟨polling 8 [⟨.ok, [8#8, 0#8]⟩] [], _, rfl, rfl, rfl, rfl⟩,
    ⟨polling 8 [⟨.err 5, [0#8, 0#8]⟩] [], _, rfl, rfl, rfl⟩,
    ⟨closing 8 .ok, _, rfl, rfl, rfl⟩⟩

theorem witness_OnlyAnInRangeWriteFrameChangesARegister : ∃ s t : State, step s = .next t ∧ t.x.read 2 ≠ s.x.read 2 :=
  ⟨polling 8 [⟨.ok, [2#8, 0x5A#8]⟩] [], _, rfl, by decide⟩

/-- Two states that differ in buffers, trace and `fatal`, and an iteration that reports an error. -/
theorem witness_OnlyTheBankPassesToTheNextIteration :
    (∃ s s' t : State, s ≠ s' ∧ s.ctl = .polling ∧ s'.ctl = .polling ∧ s'.x = s.x ∧ s'.params = s.params ∧
      s'.env = s.env ∧ step s = .next t) ∧
    (∃ (s t : State) (es : List Event), s.ctl = .polling ∧ step s = .next t ∧ t.trace = s.trace ++ es ∧
      countEvents isReport es ≠ 0) :=
  ⟨⟨polling 8 [⟨.ok, []⟩] [], { polling 8 [⟨.ok, []⟩] [] with rx := [1#8], fatal := true, trace := [.backoff] }, _,
      by decide, rfl, rfl, rfl, rfl, rfl, rfl⟩,
    ⟨polling 8 [⟨.ok, [9#8]⟩] [], _, [.callPoll .ok 1 [9#8], .report (.outOfRange .read 9#8)], rfl, rfl, rfl, by decide⟩⟩

theorem witness_EveryIterationFinishes : (∃ s : State, s.params.legal = true ∧ s.ctl = .polling) ∧ ∃ s : State, Inv s :=
  ⟨⟨polling 8 [] [], by decide⟩, ⟨polling 8 [] [], ⟨rfl, Memory.wf_nil _, rfl, rfl, rfl, by decide⟩⟩⟩

theorem witness_OnlyAFailedStartupStopsTheMachine :
    (∃ s t : State, step s = .next t ∧ t.ctl = .failed) ∧
    (∃ s : State, s.params.legal = true ∧ s.ctl = .initializing ∧ setEnabledAnswer s = .err 5) ∧
    ∃ s : State, step s = .fault .startupFailed :=
  ⟨⟨fresh 8 [.err 5], _, rfl, rfl⟩, ⟨fresh 8 [.err 5], by decide⟩, ⟨{ fresh 8 [] with ctl := .failed }, rfl⟩⟩

theorem witness_TerminalStatesAreNeverLeft : ∃ s u : State, s.params.legal = true ∧ s.ctl = .closing ∧
    u.params.legal = true ∧ u.ctl = .failed :=
  ⟨{ fresh 8 [] with ctl := .closing }, { fresh 8 [] with ctl := .failed }, by decide⟩

theorem witness_RaisingAnErrorOnlyReportsIt : PortOp.disable ≠ .enable := by decide

theorem witness_ResetValues : (params 255).legal = true ∧ 254 < (params 255).n := by decide

theorem witness_ResetForgetsTheOldLife : ∃ s s' : State, s ≠ s' ∧ s'.params = s.params ∧ s'.env = s.env :=
  ⟨fresh 8 [], { fresh 8 [] with ctl := .failed, fatal := true }, by decide⟩

theorem witness_ExitStatusIsNonZeroAndOnlyAfterFailure : ∃ s : State, exitStatus s = some 1 ∧ s.fatal = true :=
  ⟨{ fresh 8 [] with fatal := true }, by decide⟩

theorem witness_InstancesShareNothing : ∃ is is' : Instances, stepInstance 1 is = some (.next is') :=
  ⟨[fresh 8 [], fresh 8 [.ok]], _, rfl⟩

theorem witness_WriteThenReadReturnsTheValue : ∃ s t : State, s.params.legal = true ∧ s.ctl = .polling ∧
    (7#8).toNat < s.params.n ∧ shutdownLevel s = false ∧ pollAnswer s = ⟨.ok, [7#8, 0#8]⟩ ∧ step s = .next t ∧
    shutdownLevel t = false ∧ pollAnswer t = ⟨.ok, [7#8]⟩ :=
  ⟨polling 8 [⟨.ok, [7#8, 0#8]⟩, ⟨.ok, [7#8]⟩] [], _, rfl, rfl, by decide, rfl, rfl, rfl, rfl, rfl⟩

theorem witness_RegisterKeepsItsValueWithoutAWriteFrame : ∃ (s t : State) (es : List Event),
    Host.Core.run core 1 s = .next t ∧ t.trace = s.trace ++ es ∧ ∀ n value, .callPoll .ok n [7#8, value] ∉ es :=
  ⟨polling 8 [⟨.ok, []⟩] [], _, [.callPoll .ok 0 [], .backoff], rfl, rfl, by intros; simp⟩

theorem witness_ResetMeetsTheInvariant : (params 8).legal = true := by decide

theorem witness_StepKeepsTheInvariant : ∃ s t : State, Inv s ∧ step s = .next t :=
  ⟨polling 8 [⟨.ok, [2#8, 0x5A#8]⟩] [], _, ⟨rfl, Memory.wf_nil _, rfl, rfl, rfl, by decide⟩, rfl⟩

theorem witness_BankAndResponsesFollowThePolls : ∃ s t : State, Consistent s ∧ step s = .next t :=
  ⟨polling 8 [⟨.ok, [2#8, 0x5A#8]⟩] [], _,
    ⟨fun _ _ => rfl, fun pre _ _ _ h => by cases pre <;> cases h⟩, rfl⟩

end Sys2Proof.Tests
end

section
/-! The address space of the register bank (20_memory.md, R40): the accessors succeed exactly below N, and N is in 1..255. -/

namespace Sys2Proof.Machine

open Sys2Proof

/-- R5's bounds on N. -/
theorem legal_iff {p : Params} : p.legal = true ↔ 1 ≤ p.n ∧ p.n ≤ 255 := by
  unfold Params.legal
  rw [Bool.and_eq_true, decide_eq_true_iff, decide_eq_true_iff]

/-- The converse of `memRead_inRange`: a read that succeeds was in range. -/
theorem lt_of_memRead_ok {index v : Byte} {s : State} (h : memRead index s = .ok v) : index.toNat < s.params.n := by
  by_contra hlt
  rw [memRead_outOfRange (not_lt.mp hlt)] at h
  cases h

/-- The converse of `memWrite_inRange`: a write that succeeds was in range. -/
theorem lt_of_memWrite_ok {index value : Byte} {s t : State} (h : memWrite index value s = .ok t) :
    index.toNat < s.params.n := by
  by_contra hlt
  rw [memWrite_outOfRange value (not_lt.mp hlt)] at h
  cases h

theorem exists_memRead_ok_iff {index : Byte} {s : State} :
    (∃ v, memRead index s = .ok v) ↔ index.toNat < s.params.n :=
  ⟨fun ⟨_, h⟩ => lt_of_memRead_ok h, fun h => ⟨_, memRead_inRange h⟩⟩

theorem exists_memWrite_ok_iff {index value : Byte} {s : State} :
    (∃ t, memWrite index value s = .ok t) ↔ index.toNat < s.params.n :=
  ⟨fun ⟨_, h⟩ => lt_of_memWrite_ok h, fun h => ⟨_, memWrite_inRange value h⟩⟩

/-- Settles O10: each accessor answers by the range check alone, and an admitted N lies in 1..255. -/
theorem addressSpaceIsZeroToNMinusOne : Obligations.AddressSpaceIsZeroToNMinusOne := by
  intro s index value hl
  obtain ⟨hpos, hmax⟩ := legal_iff.mp hl
  exact ⟨exists_memRead_ok_iff, exists_memWrite_ok_iff,
    fun h => ⟨memRead_outOfRange h, memWrite_outOfRange value h⟩, hmax, hpos⟩

end Sys2Proof.Machine
end

section
/-! The RegisterBank (40_register_bank.md, R80 to R83): what the checked accessors answer on each side of N, and what a read
after a write answers at the written index and at every other index. -/

namespace Sys2Proof.Machine

open Sys2Proof

/-- The bank has N entries in every state (R83 (d)). -/
@[simp] theorem length_snapshot (s : State) : (snapshot s).length = s.params.n := by
  simp [snapshot]

/-- R83 (a). -/
theorem memRead_write_same {index : Byte} (value : Byte) {s : State} (h : index.toNat < s.params.n) :
    memRead index { s with x := s.x.write index.toNat value } = .ok value := by
  rw [memRead_inRange, Memory.read_write_same]
  exact h

/-- A read depends on N and the byte at its index alone: both states answer that byte, or both refuse. -/
theorem memRead_congr {index : Byte} {s t : State} (hp : t.params = s.params)
    (hx : t.x.read index.toNat = s.x.read index.toNat) : memRead index t = memRead index s := by
  rcases lt_or_ge index.toNat s.params.n with hlt | hge
  · rw [memRead_inRange hlt, memRead_inRange (hp ▸ hlt), hx]
  · rw [memRead_outOfRange hge, memRead_outOfRange (hp ▸ hge)]

/-- R83 (c). The other index may be in range or not. -/
theorem memRead_write_other {index other : Byte} (value : Byte) (s : State) (h : other ≠ index) :
    memRead other { s with x := s.x.write index.toNat value } = memRead other s :=
  memRead_congr rfl (Memory.read_write_other _ _ (mt BitVec.eq_of_toNat_eq h))

/-- Settles O7: the two sides of the range check, at 255 and 0 by R5's bounds on N. -/
theorem checkedReadFailsExactlyOutOfRange : Obligations.CheckedReadFailsExactlyOutOfRange := by
  intro s index
  refine ⟨memRead_outOfRange, memRead_inRange, fun hl => ?_⟩
  obtain ⟨hpos, hmax⟩ := legal_iff.mp hl
  exact ⟨memRead_outOfRange hmax, memRead_inRange hpos⟩

/-- Settles O8: in range the new state is the old one with its bank written, and a write is a write of one address. -/
theorem checkedWriteChangesOneRegister : Obligations.CheckedWriteChangesOneRegister := by
  intro s index value
  exact ⟨memWrite_outOfRange value, fun h => ⟨_, memWrite_inRange value h, Memory.read_write_same _ _ _,
    fun _ ha => Memory.read_write_other _ _ ha, rfl⟩⟩

/-- Settles O9: the laws (a) to (d) of R83, each by its lemma. -/
theorem bankLaws : Obligations.BankLaws := by
  intro s index value
  refine ⟨fun h => ⟨_, memWrite_inRange value h, ?_, ?_, ?_⟩, fun h => ?_, length_snapshot s⟩
  · exact memRead_write_same value h
  · exact fun _ hne => memRead_write_other value s hne
  · exact length_snapshot _
  · exact ⟨memRead_outOfRange h, memWrite_outOfRange value h⟩

end Sys2Proof.Machine
end

section
/-! The TransactionDecoder's selection by the count (41_transaction_decoder.md R90, R91): where it answers, and what kind of
instruction it answers. -/

namespace Sys2Proof

/-- R90's fourth class, for a count not written as a successor. -/
theorem decode_of_three_le {n : Nat} (buf : List Byte) (h : 3 ≤ n) : decode n buf = .ok (.bad n) := by
  obtain ⟨k, rfl⟩ := Nat.exists_eq_add_of_le' h
  exact decode_long k buf

/-- The decoder answers wherever the buffer holds the bytes that the class reads. -/
theorem exists_decode_ok {n : Nat} {buf : List Byte} (h : n ≤ buf.length ∨ 3 ≤ n) : ∃ i, decode n buf = .ok i := by
  match n, buf with
  | 0, buf => exact ⟨.idle, decode_zero buf⟩
  | 1, b0 :: rest => exact ⟨.rd b0, decode_one b0 rest⟩
  | 2, b0 :: b1 :: rest => exact ⟨.wr b0 b1, decode_two b0 b1 rest⟩
  | k + 3, buf => exact ⟨.bad (k + 3), decode_long k buf⟩
  | 1, [] | 2, [] | 2, [_] => simp at h

/-- Whatever the decoder answers is one of R90's four classes, selected by the count. -/
theorem decode_ok_cases {n : Nat} {buf : List Byte} {i : Instr} (h : decode n buf = .ok i) :
    (n = 0 ∧ i = .idle) ∨ (n = 1 ∧ ∃ b0, i = .rd b0) ∨ (n = 2 ∧ ∃ b0 b1, i = .wr b0 b1) ∨ (3 ≤ n ∧ i = .bad n) := by
  match n, buf, h with
  | 0, _, rfl => exact .inl ⟨rfl, rfl⟩
  | 1, b0 :: _, rfl => exact .inr (.inl ⟨rfl, b0, rfl⟩)
  | 2, b0 :: b1 :: _, rfl => exact .inr (.inr (.inl ⟨rfl, b0, b1, rfl⟩))
  | k + 3, _, rfl => exact .inr (.inr (.inr ⟨Nat.le_add_left 3 k, rfl⟩))

/-- `START` and `STOP` have no encoding (R70), and a `BAD` has the three bytes that select its class (R64). -/
theorem isFrame_and_wellFormed_of_decode {n : Nat} {buf : List Byte} {i : Instr} (h : decode n buf = .ok i) :
    i.isFrame = true ∧ i.wellFormed = true := by
  obtain ⟨-, rfl⟩ | ⟨-, b0, rfl⟩ | ⟨-, b0, b1, rfl⟩ | ⟨hn, rfl⟩ := decode_ok_cases h
  · exact ⟨rfl, rfl⟩
  · exact ⟨rfl, rfl⟩
  · exact ⟨rfl, rfl⟩
  · exact ⟨rfl, decide_eq_true hn⟩

/-- Settles O2: the decoder answers, any answer is a well-formed frame, and a function has one answer. -/
theorem decodeIsTotalAndAnswersFrames : Obligations.DecodeIsTotalAndAnswersFrames := by
  intro n buf hn
  obtain ⟨i, hi⟩ := exists_decode_ok hn
  refine ⟨i, ⟨hi, isFrame_and_wellFormed_of_decode hi⟩, fun j hj => ?_⟩
  obtain ⟨hj, -⟩ := hj
  exact Except.ok.inj (hj.symm.trans hi)

/-- Settles O1: the four classes of R90, each by its lemma. -/
theorem decodeSelectsByCountAlone : Obligations.DecodeSelectsByCountAlone :=
  ⟨decode_zero, decode_one, decode_two, fun _ => decode_of_three_le⟩

end Sys2Proof
end

section
/-! The poll iteration (42_slave_controller.md R100 to R108): what the service routines and the closing keep, what
an iteration keeps, and the idle iteration whole. -/

namespace Sys2Proof.Machine

open Sys2Proof

/-! ### What the routines of an iteration keep -/

@[simp] theorem fetched_trace (s : State) :
    (fetched s).trace = s.trace ++ [.callPoll (pollAnswer s).st (pollAnswer s).count (pollAnswer s).buf] := rfl

/-- A read frame keeps the bank, the `fatal` bit and the parameters, in range or not, transmitted or not. -/
theorem serviceRead_keeps (index : Byte) (s : State) : (serviceRead index s).x = s.x ∧
    (serviceRead index s).fatal = s.fatal ∧ (serviceRead index s).params = s.params := by
  rcases lt_or_ge index.toNat s.params.n with hlt | hge
  · rw [serviceRead_inRange hlt]
    cases transmitAnswer s with
    | ok => exact ⟨rfl, rfl, rfl⟩
    | err c => exact ⟨rfl, rfl, rfl⟩
  · rw [serviceRead_outOfRange hge]
    exact ⟨rfl, rfl, rfl⟩

/-- A write frame keeps the `fatal` bit and the parameters, in range or not. -/
theorem serviceWrite_keeps (index value : Byte) (s : State) :
    (serviceWrite index value s).fatal = s.fatal ∧ (serviceWrite index value s).params = s.params := by
  rcases lt_or_ge index.toNat s.params.n with hlt | hge
  · rw [serviceWrite_inRange value hlt]
    exact ⟨rfl, rfl⟩
  · rw [serviceWrite_outOfRange value hge]
    exact ⟨rfl, rfl⟩

/-- `Close()` whose disabling the port answers with success (R134). -/
theorem close_of_ok {s : State} (h : setEnabledAnswer s = .ok) :
    close s = clearBuffers (enableCalled false (setCtl .closing s)) := by
  unfold close; simp only [h]

/-- `Close()` whose disabling fails: the report besides (R134). -/
theorem close_of_err {s : State} {c : Nat} (h : setEnabledAnswer s = .err c) :
    close s = clearBuffers (raise (.transferFailure .disable (.err c)) (enableCalled false (setCtl .closing s))) := by
  unfold close; simp only [h]; rfl

/-- Closing keeps the bank, the `fatal` bit and the parameters, whatever the port answers. -/
theorem close_keeps (s : State) : (close s).x = s.x ∧ (close s).fatal = s.fatal ∧ (close s).params = s.params := by
  cases h : setEnabledAnswer s with
  | ok => rw [close_of_ok h]; exact ⟨rfl, rfl, rfl⟩
  | err c => rw [close_of_err h]; exact ⟨rfl, rfl, rfl⟩

/-- Closing leaves both buffers empty. -/
theorem close_buffers (s : State) : (close s).rx = [] ∧ (close s).tx = [] := by
  cases h : setEnabledAnswer s with
  | ok => rw [close_of_ok h]; exact ⟨rfl, rfl⟩
  | err c => rw [close_of_err h]; exact ⟨rfl, rfl⟩

/-- An iteration, the closing one included, ends with both buffers empty (R107, R134). -/
theorem step_polling_buffers {s t : State} (hc : s.ctl = .polling) (h : step s = .next t) : t.rx = [] ∧ t.tx = [] := by
  obtain ⟨-, hcase⟩ := step_next_cases h
  cases hcase with
  | started hi => cases hc.symm.trans hi
  | stayed hcl => cases hc.symm.trans hcl
  | closed => exact close_buffers _
  | pollFailed | idle | rd | wr | bad => exact ⟨rfl, rfl⟩

/-- An iteration, the closing one included, keeps the `fatal` bit and the parameters (R108). -/
theorem step_polling_keeps {s t : State} (hc : s.ctl = .polling) (h : step s = .next t) :
    t.fatal = s.fatal ∧ t.params = s.params := by
  obtain ⟨-, hcase⟩ := step_next_cases h
  cases hcase with
  | started hi => cases hc.symm.trans hi
  | stayed hcl => cases hc.symm.trans hcl
  | closed => exact (close_keeps (sampled s)).2
  | rd _ _ index => exact (serviceRead_keeps index (fetched s)).2
  | wr _ _ index value => exact serviceWrite_keeps index value (fetched s)
  | pollFailed | idle | bad => exact ⟨rfl, rfl⟩

/-- A write frame that changes the bank is answered with a snapshot and no report (R105). -/
theorem serviceWrite_x_or_trace (index value : Byte) (s : State) : (serviceWrite index value s).x = s.x ∨
    ∃ table, (serviceWrite index value s).trace = s.trace ++ [.snapshot table] := by
  rcases lt_or_ge index.toNat s.params.n with hlt | hge
  · rw [serviceWrite_inRange value hlt]
    exact .inr ⟨_, rfl⟩
  · rw [serviceWrite_outOfRange value hge]
    exact .inl (raise_x s _)

/-- R108: an iteration that reports an error keeps the bank. -/
theorem step_polling_x_of_report {s t : State} {es : List Event} (hc : s.ctl = .polling) (h : step s = .next t)
    (ht : t.trace = s.trace ++ es) (hr : countEvents isReport es ≠ 0) : t.x = s.x := by
  obtain ⟨-, hcase⟩ := step_next_cases h
  cases hcase with
  | started hi => cases hc.symm.trans hi
  | stayed hcl => cases hc.symm.trans hcl
  | closed => exact (close_keeps (sampled s)).1
  | rd _ _ index => exact (serviceRead_keeps index (fetched s)).1
  | pollFailed | idle | bad => rfl
  | wr _ _ index value =>
    obtain hx | ⟨table, hsnap⟩ := serviceWrite_x_or_trace index value (fetched s)
    · exact hx
    · rw [endIteration_trace, hsnap, fetched_trace, List.append_assoc] at ht
      cases List.append_cancel_left ht
      exact absurd rfl hr

/-! ### `IDLE` -/

/-- The step in which a delivered frame's meaning runs (R100). -/
theorem step_frame {s : State} {i : Instr} (hl : s.params.legal = true) (hc : s.ctl = .polling)
    (hs : shutdownLevel s = false) (ha : (pollAnswer s).st = .ok)
    (hd : decode (pollAnswer s).count (pollAnswer s).buf = .ok i) : step s = thenEndIteration (exec i (fetched s)) := by
  rw [step_polling hl hc hs]
  exact afterPoll_decoded _ ha hd

/-- `IDLE` where it can happen (R103). -/
theorem exec_idle {s : State} (hl : s.params.legal = true) (hc : s.ctl = .polling) :
    exec .idle s = .next (serviceIdle s) := whenIn_of serviceIdle hl hc

/-- The step of an idle poll (R100, R103). -/
theorem step_idle {s : State} (hl : s.params.legal = true) (hc : s.ctl = .polling) (hs : shutdownLevel s = false)
    (ha : pollAnswer s = ⟨.ok, []⟩) : step s = .next (endIteration (serviceIdle (fetched s))) := by
  obtain ⟨hfl, hfc⟩ := fetched_guards hl hc
  rw [step_frame hl hc hs (by rw [ha]) (by rw [ha]; exact decode_zero []), exec_idle hfl hfc]
  rfl

/-- The end of an idle iteration, field by field: the buffers are cleared, two events were emitted, two answers taken. -/
theorem endIteration_serviceIdle_fetched {s : State} (hc : s.ctl = .polling) (hrx : s.rx = []) (htx : s.tx = [])
    (ha : pollAnswer s = ⟨.ok, []⟩) : endIteration (serviceIdle (fetched s)) = { s with
      env := { s.env with shutdown := s.env.shutdown.advance, poll := s.env.poll.advance },
      trace := s.trace ++ [.callPoll .ok 0 [], .backoff] } := by
  have htrace : (fetched s).trace ++ [.backoff] = s.trace ++ [.callPoll .ok 0 [], .backoff] := by
    rw [fetched_trace, ha, List.append_assoc]
    rfl
  calc endIteration (serviceIdle (fetched s)) = { s with
        ctl := .polling, rx := [], tx := [],
        env := { s.env with shutdown := s.env.shutdown.advance, poll := s.env.poll.advance },
        trace := (fetched s).trace ++ [.backoff] } := rfl
    _ = _ := by rw [htrace, hc, hrx, htx]

/-- Settles O14: the service routine by its definition, and the whole iteration by what its end leaves of the state. -/
theorem idlePollOnlyBacksOff : Obligations.IdlePollOnlyBacksOff := by
  refine ⟨fun s hl hc => exec_idle hl hc, fun s hl hc hrx htx hs ha => ?_⟩
  rw [step_idle hl hc hs ha, endIteration_serviceIdle_fetched hc hrx htx ha]

end Sys2Proof.Machine
end

section
/-! R108: an iteration of a Polling machine is determined by the bank, the parameters and the environment. Two machines
that agree there are followed operation by operation, one rule for each. -/

namespace Sys2Proof.Machine

open Sys2Proof

/-- Two runs, from s to u and from s' to u', that have gone on alike: the same bank, controller state, parameters and
environment, and the same events since. Buffers, earlier trace and `fatal` may differ. -/
structure AlikeSince (s s' u u' : State) : Prop where
  bank   : u'.x = u.x
  ctl    : u'.ctl = u.ctl
  params : u'.params = u.params
  env    : u'.env = u.env
  events : ∃ es, u.trace = s.trace ++ es ∧ u'.trace = s'.trace ++ es

namespace AlikeSince

variable {s s' u u' : State}

theorem emit (h : AlikeSince s s' u u') (e : Event) : AlikeSince s s' (emit e u) (emit e u') := by
  obtain ⟨es, hu, hu'⟩ := h.events
  exact ⟨h.bank, h.ctl, h.params, h.env, es ++ [e], by simp [hu], by simp [hu']⟩

theorem setCtl (h : AlikeSince s s' u u') (c : Ctl) : AlikeSince s s' (setCtl c u) (setCtl c u') :=
  ⟨h.bank, rfl, h.params, h.env, h.events⟩

theorem receive (h : AlikeSince s s' u u') (buf : List Byte) : AlikeSince s s' (receive buf u) (receive buf u') :=
  ⟨h.bank, h.ctl, h.params, h.env, h.events⟩

theorem stage (h : AlikeSince s s' u u') (v : Byte) : AlikeSince s s' (stage v u) (stage v u') :=
  ⟨h.bank, h.ctl, h.params, h.env, h.events⟩

theorem clearTx (h : AlikeSince s s' u u') : AlikeSince s s' (clearTx u) (clearTx u') :=
  ⟨h.bank, h.ctl, h.params, h.env, h.events⟩

theorem clearBuffers (h : AlikeSince s s' u u') : AlikeSince s s' (clearBuffers u) (clearBuffers u') :=
  ⟨h.bank, h.ctl, h.params, h.env, h.events⟩

theorem endIteration (h : AlikeSince s s' u u') : AlikeSince s s' (endIteration u) (endIteration u') :=
  h.clearBuffers.setCtl .polling

/-- Alike machines that take the same answers stay alike. -/
theorem advanceEnv (h : AlikeSince s s' u u') (take : Env → Env) :
    AlikeSince s s' { u with env := take u.env } { u' with env := take u'.env } :=
  ⟨h.bank, h.ctl, h.params, congrArg take h.env, h.events⟩

theorem sampled (h : AlikeSince s s' u u') : AlikeSince s s' (sampled u) (sampled u') :=
  h.advanceEnv fun e => { e with shutdown := e.shutdown.advance }

theorem shutdownLevel_eq (h : AlikeSince s s' u u') : shutdownLevel u' = shutdownLevel u := by
  unfold shutdownLevel; rw [h.env]

theorem pollAnswer_eq (h : AlikeSince s s' u u') : pollAnswer u' = pollAnswer u := by
  unfold pollAnswer; rw [h.env]

theorem transmitAnswer_eq (h : AlikeSince s s' u u') : transmitAnswer u' = transmitAnswer u :=
  transmitAnswer_congr u u' (by rw [h.env])

theorem setEnabledAnswer_eq (h : AlikeSince s s' u u') : setEnabledAnswer u' = setEnabledAnswer u :=
  setEnabledAnswer_congr u u' (by rw [h.env])

theorem snapshot_eq (h : AlikeSince s s' u u') : snapshot u' = snapshot u := snapshot_congr u u' h.bank h.params

theorem polled (h : AlikeSince s s' u u') : AlikeSince s s' (polled u) (polled u') := by
  unfold Machine.polled
  rw [h.pollAnswer_eq]
  exact (h.advanceEnv fun e => { e with poll := e.poll.advance }).emit _

/-- The event of a transmit names the transmit buffer, which must therefore be the same. -/
theorem transmitted (h : AlikeSince s s' u u') (htx : u'.tx = u.tx) :
    AlikeSince s s' (transmitted u) (transmitted u') := by
  have hevent : Event.callTransmit u'.tx (transmitAnswer u') = .callTransmit u.tx (transmitAnswer u) := by
    rw [htx, h.transmitAnswer_eq]
  unfold Machine.transmitted
  rw [hevent]
  exact (h.advanceEnv fun e => { e with transmit := e.transmit.advance }).emit _

theorem enableCalled (h : AlikeSince s s' u u') (b : Bool) :
    AlikeSince s s' (enableCalled b u) (enableCalled b u') := by
  have hevent : Event.callSetEnabled b u'.params.slaveAddr (setEnabledAnswer u') =
      .callSetEnabled b u.params.slaveAddr (setEnabledAnswer u) := by
    rw [h.params, h.setEnabledAnswer_eq]
  unfold Machine.enableCalled
  rw [hevent]
  exact (h.advanceEnv fun e => { e with setEnabled := e.setEnabled.advance }).emit _

theorem raise (h : AlikeSince s s' u u') (e : SlaveError) : AlikeSince s s' (raise e u) (raise e u') := by
  obtain ⟨es, hu, hu'⟩ := h.events
  refine ⟨by simp [h.bank], by simp [h.ctl], by simp [h.params], by simp [h.env], es ++ [.report e], ?_, ?_⟩
  · simp [hu]
  · simp [hu']

theorem serviceIdle (h : AlikeSince s s' u u') : AlikeSince s s' (serviceIdle u) (serviceIdle u') :=
  (h.setCtl .idling).clearTx.emit .backoff

theorem readSent (h : AlikeSince s s' u u') (index : Byte) :
    AlikeSince s s' (readSent index u) (readSent index u') := by
  unfold Machine.readSent
  rw [h.bank]
  exact (((h.setCtl .servicingRead).stage _).transmitted rfl).clearBuffers

theorem serviceRead (h : AlikeSince s s' u u') (index : Byte) :
    AlikeSince s s' (serviceRead index u) (serviceRead index u') := by
  rcases lt_or_ge index.toNat u.params.n with hlt | hge
  · rw [serviceRead_inRange hlt, serviceRead_inRange (h.params ▸ hlt), h.transmitAnswer_eq, h.snapshot_eq]
    cases transmitAnswer u with
    | ok => exact (h.readSent index).emit _
    | err c => exact (h.readSent index).raise _
  · rw [serviceRead_outOfRange hge, serviceRead_outOfRange (h.params ▸ hge)]
    exact h.raise _

theorem writeDone (h : AlikeSince s s' u u') (index value : Byte) :
    AlikeSince s s' (writeDone index value u) (writeDone index value u') :=
  ⟨congrArg (Memory.write · index.toNat value) h.bank, rfl, h.params, h.env, h.events⟩

theorem serviceWrite (h : AlikeSince s s' u u') (index value : Byte) :
    AlikeSince s s' (serviceWrite index value u) (serviceWrite index value u') := by
  rcases lt_or_ge index.toNat u.params.n with hlt | hge
  · have hdone := h.writeDone index value
    rw [serviceWrite_inRange value hlt, serviceWrite_inRange value (h.params ▸ hlt), hdone.snapshot_eq]
    exact hdone.emit _
  · rw [serviceWrite_outOfRange value hge, serviceWrite_outOfRange value (h.params ▸ hge)]
    exact h.raise _

theorem close (h : AlikeSince s s' u u') : AlikeSince s s' (close u) (close u') := by
  have hcalled := (h.setCtl .closing).enableCalled false
  cases ha : setEnabledAnswer u with
  | ok =>
    rw [close_of_ok ha, close_of_ok (h.setEnabledAnswer_eq.trans ha)]
    exact hcalled.clearBuffers
  | err c =>
    rw [close_of_err ha, close_of_err (h.setEnabledAnswer_eq.trans ha)]
    exact (hcalled.raise _).clearBuffers

theorem startUp (h : AlikeSince s s' u u') : AlikeSince s s' (startUp u) (startUp u') := by
  unfold Machine.startUp
  rw [h.setEnabledAnswer_eq]
  cases setEnabledAnswer u with
  | ok => exact (h.enableCalled true).setCtl .polling
  | err c => exact (h.enableCalled true).raise _

/-- An effect that keeps machines alike does so as an event: where the one happens, so does the other. -/
theorem whenIn (h : AlikeSince s s' u u') {required : Ctl} {effect : State → State} {t : State}
    (heffect : AlikeSince s s' (effect u) (effect u')) (hu : whenIn required effect u = .next t) :
    ∃ t', Machine.whenIn required effect u' = .next t' ∧ AlikeSince s s' t t' := by
  obtain ⟨hl, hc, rfl⟩ := whenIn_next.mp hu
  exact ⟨effect u', whenIn_of effect (h.params ▸ hl) (h.ctl.trans hc), heffect⟩

/-- Every instruction acts alike on machines that are alike. -/
theorem exec (h : AlikeSince s s' u u') {i : Instr} {t : State} (hu : exec i u = .next t) :
    ∃ t', Machine.exec i u' = .next t' ∧ AlikeSince s s' t t' := by
  cases i with
  | idle => exact h.whenIn h.serviceIdle hu
  | rd index => exact h.whenIn (h.serviceRead index) hu
  | wr index value => exact h.whenIn (h.serviceWrite index value) hu
  | bad n => exact h.whenIn (h.raise (.malformedFrame n)) hu
  | start => exact h.whenIn h.startUp hu
  | stop => exact h.whenIn h.close hu

/-- What follows the same poll answer is alike, a failed poll included. -/
theorem afterPoll (h : AlikeSince s s' u u') {a : PollAnswer} {t : State} (hu : afterPoll a u = .next t) :
    ∃ t', Machine.afterPoll a u' = .next t' ∧ AlikeSince s s' t t' := by
  cases hst : a.st with
  | err c =>
    rw [afterPoll_failed u hst] at hu
    cases hu
    exact ⟨_, afterPoll_failed u' hst, (h.raise _).endIteration⟩
  | ok =>
    have hd := decode_frame a.buf
    rw [afterPoll_decoded u hst hd] at hu
    obtain ⟨v, hv, rfl⟩ := thenEndIteration_next.mp hu
    obtain ⟨v', hv', halike⟩ := (h.receive a.buf).exec hv
    rw [afterPoll_decoded u' hst hd, thenEndIteration_next.mpr ⟨v', hv', rfl⟩]
    exact ⟨_, rfl, halike.endIteration⟩

/-- An iteration of alike machines in `Polling` leaves them alike: it reads neither buffers nor trace nor `fatal` (R108). -/
theorem step (h : AlikeSince s s' u u') {t : State} (hc : u.ctl = .polling) (hu : step u = .next t) :
    ∃ t', Machine.step u' = .next t' ∧ AlikeSince s s' t t' := by
  obtain ⟨hl, -⟩ := step_next_cases hu
  have hl' : u'.params.legal = true := h.params ▸ hl
  have hc' : u'.ctl = .polling := h.ctl.trans hc
  cases hs : shutdownLevel u with
  | true =>
    rw [step_shutdown hl hc hs] at hu
    rw [step_shutdown hl' hc' (h.shutdownLevel_eq.trans hs)]
    exact h.sampled.exec hu
  | false =>
    rw [step_polling hl hc hs] at hu
    rw [step_polling hl' hc' (h.shutdownLevel_eq.trans hs), h.pollAnswer_eq]
    exact h.sampled.polled.afterPoll hu

end AlikeSince

/-- Settles O36: the two iterations stay alike since their first states, with buffers empty at the end of both; and one that
reports keeps the bank, as every one keeps `fatal` and the parameters. -/
theorem onlyTheBankPassesToTheNextIteration : Obligations.OnlyTheBankPassesToTheNextIteration := by
  refine ⟨fun s s' t hc hc' hx hp he hstep => ?_, fun s t es hc hstep ht hr =>
    ⟨step_polling_x_of_report hc hstep ht hr, step_polling_keeps hc hstep⟩⟩
  have hstart : AlikeSince s s' s s' :=
    ⟨hx, hc'.trans hc.symm, hp, he, [], (List.append_nil _).symm, (List.append_nil _).symm⟩
  obtain ⟨t', hstep', hbank, hctl, hparams, henv, es, ht, ht'⟩ := hstart.step hc hstep
  obtain ⟨hrx, htx⟩ := step_polling_buffers hc hstep
  obtain ⟨hrx', htx'⟩ := step_polling_buffers hc' hstep'
  exact ⟨t', es, hstep', ht, ht', hbank, hctl, hrx'.trans hrx.symm, htx'.trans htx.symm, hparams, henv⟩

end Sys2Proof.Machine
end

section
/-! Instances side by side (43_lifecycle.md, R137): what moving one of them does to the list, said once for a step and once
for a reset. Both replace entry k alone, so what the others are follows from the laws of `List.set` and `List.modify`. -/

namespace Sys2Proof.Machine

open Sys2Proof

/-- Instance k moves on exactly where it exists and its own step answers a next state, and that state is all that is put
into the list. -/
theorem stepInstance_next {k : Nat} {is is' : Instances} :
    stepInstance k is = some (.next is') ↔ ∃ s t, is[k]? = some s ∧ step s = .next t ∧ is' = is.set k t := by
  unfold stepInstance
  cases is[k]? with
  | none => simp
  | some s => cases hstep : step s <;> simp [hstep, eq_comm]

theorem length_resetInstance (k : Nat) (is : Instances) : (resetInstance k is).length = is.length :=
  List.length_modify ..

theorem getElem?_resetInstance_same (k : Nat) (is : Instances) : (resetInstance k is)[k]? = is[k]?.map applyReset :=
  List.getElem?_modify_eq ..

theorem getElem?_resetInstance_other {j k : Nat} (h : j ≠ k) (is : Instances) : (resetInstance k is)[j]? = is[j]? :=
  List.getElem?_modify_ne _ is h.symm

/-- Settles O44: a step puts what it answers into entry k, which exists, and a reset modifies entry k. -/
theorem instancesShareNothing : Obligations.InstancesShareNothing := by
  refine fun k is => ⟨fun is' hmoved => ?_, length_resetInstance k is,
    fun j hj => getElem?_resetInstance_other hj is, getElem?_resetInstance_same k is⟩
  obtain ⟨s, t, hs, hstep, rfl⟩ := stepInstance_next.mp hmoved
  obtain ⟨hk, -⟩ := List.getElem?_eq_some_iff.mp hs
  exact ⟨List.length_set, fun j hj => List.getElem?_set_ne hj.symm, s, t, hs, hstep, List.getElem?_set_self hk⟩

end Sys2Proof.Machine
end

section
/-! The errors of a poll iteration (60_exceptions.md R151, R152): an iteration appends its row of R109's table to the trace,
so which error it reports is read off the table. -/

namespace Sys2Proof.Machine

open Sys2Proof

/-! ### An iteration's events are its row of R109 -/

/-- What a bank reads as after a write, at every address at once. -/
theorem Memory.read_write (m : Memory) (a : Nat) (v : Byte) : (m.write a v).read = bankWith m.read a v := by
  funext b
  unfold bankWith
  split
  · next hb => rw [hb, Memory.read_write_same]
  · next hb => exact Memory.read_write_other m v hb

theorem snapshot_eq_bankTable (s : State) : snapshot s = bankTable s.params.n s.x.read := rfl

/-- The snapshot of a write frame is taken after the write (R105). -/
theorem snapshot_writeDone (index value : Byte) (s : State) :
    snapshot (writeDone index value s) = bankTable s.params.n (bankWith s.x.read index.toNat value) := by
  rw [← Memory.read_write, snapshot_eq_bankTable]
  rfl

@[simp] theorem serviceIdle_trace (s : State) : (serviceIdle s).trace = s.trace ++ [.backoff] := rfl

@[simp] theorem readSent_trace (index : Byte) (s : State) :
    (readSent index s).trace = s.trace ++ [.callTransmit [s.x.read index.toNat] (transmitAnswer s)] := rfl

@[simp] theorem writeDone_trace (index value : Byte) (s : State) : (writeDone index value s).trace = s.trace := rfl

/-- A read frame completes the row of R109 that its poll began (R104). -/
theorem serviceRead_trace {index : Byte} {s : State} {before : List Event}
    (hpoll : s.trace = before ++ [.callPoll .ok 1 [index]]) : (serviceRead index s).trace =
      before ++ iterationEvents s.params.n s.x.read ⟨.ok, [index]⟩ (transmitAnswer s) := by
  rcases lt_or_ge index.toNat s.params.n with hlt | hge
  · rw [serviceRead_inRange hlt]
    cases hsend : transmitAnswer s with
    | ok => simp [iterationEvents, hlt, hpoll, hsend, snapshot_eq_bankTable]
    | err c => simp [iterationEvents, hlt, hpoll, hsend]
  · rw [serviceRead_outOfRange hge]
    simp [iterationEvents, hge.not_gt, hpoll]

/-- A write frame completes the row of R109 that its poll began, whatever a transmit would be answered (R105). -/
theorem serviceWrite_trace {index value : Byte} {s : State} {before : List Event} (transmit : Status)
    (hpoll : s.trace = before ++ [.callPoll .ok 2 [index, value]]) : (serviceWrite index value s).trace =
      before ++ iterationEvents s.params.n s.x.read ⟨.ok, [index, value]⟩ transmit := by
  rcases lt_or_ge index.toNat s.params.n with hlt | hge
  · rw [serviceWrite_inRange value hlt]
    simp [iterationEvents, hlt, hpoll, snapshot_writeDone]
  · rw [serviceWrite_outOfRange value hge]
    simp [iterationEvents, hge.not_gt, hpoll]

/-- The poll of a frame begins the iteration's row (R101). -/
theorem fetched_trace_of_ok {s : State} {buf : List Byte} (ha : pollAnswer s = ⟨.ok, buf⟩) :
    (fetched s).trace = s.trace ++ [.callPoll .ok buf.length buf] := by
  rw [fetched_trace, ha]
  rfl

/-- What an iteration that sees no shutdown does, in the table's terms: the trace grows by the row of R109, and the
iteration ends in `Polling` with both buffers empty (R107). -/
theorem step_polling_row {s : State} (hl : s.params.legal = true) (hc : s.ctl = .polling)
    (hs : shutdownLevel s = false) : ∃ t, step s = .next t ∧
      t.trace = s.trace ++ iterationEvents s.params.n s.x.read (pollAnswer s) (transmitAnswer s) ∧
      t.ctl = .polling ∧ t.rx = [] ∧ t.tx = [] := by
  obtain ⟨t, hstep, hcase⟩ := step_polling_cases hl hc hs
  refine ⟨t, hstep, ?_⟩
  cases hcase with
  | started hi => cases hc.symm.trans hi
  | stayed hcl => cases hc.symm.trans hcl
  | closed _ hseen => cases hs.symm.trans hseen
  | pollFailed _ _ c ha =>
    refine ⟨?_, rfl, rfl, rfl⟩
    simp [iterationEvents, ha, PollAnswer.count]
  | idle _ _ ha =>
    refine ⟨?_, rfl, rfl, rfl⟩
    rw [endIteration_trace, serviceIdle_trace, fetched_trace_of_ok ha, ha, List.append_assoc]
    rfl
  | rd _ _ index ha =>
    rw [ha]
    exact ⟨serviceRead_trace (fetched_trace_of_ok ha), rfl, rfl, rfl⟩
  | wr _ _ index value ha =>
    rw [ha]
    exact ⟨serviceWrite_trace _ (fetched_trace_of_ok ha), rfl, rfl, rfl⟩
  | bad _ _ b0 b1 b2 rest ha =>
    refine ⟨?_, rfl, rfl, rfl⟩
    rw [endIteration_trace, raise_trace, fetched_trace_of_ok ha, ha, List.append_assoc]
    rfl

/-! ### The error a row reports -/

/-- The rows of R109 that report, and the error of each. -/
theorem report_mem_iterationEvents {n : Nat} {x : Nat → Byte} {a : PollAnswer} {transmit : Status} {e : SlaveError} :
    .report e ∈ iterationEvents n x a transmit ↔
      (∃ c, a.st = .err c ∧ e = .transferFailure .poll (.err c)) ∨
      (∃ index c, a = ⟨.ok, [index]⟩ ∧ index.toNat < n ∧ transmit = .err c ∧ e = .transferFailure .transmit (.err c)) ∨
      (∃ index, a = ⟨.ok, [index]⟩ ∧ n ≤ index.toNat ∧ e = .outOfRange .read index) ∨
      (∃ index value, a = ⟨.ok, [index, value]⟩ ∧ n ≤ index.toNat ∧ e = .outOfRange .write index) ∨
      (a.st = .ok ∧ 3 ≤ a.count ∧ e = .malformedFrame a.count) := by
  obtain ⟨st, buf⟩ := a
  match st, buf with
  | .err c, buf => simp [iterationEvents]
  | .ok, [] => simp [iterationEvents, PollAnswer.count]
  | .ok, [index] =>
    rcases lt_or_ge index.toNat n with hlt | hge
    · cases transmit with
      | ok => simp [iterationEvents, PollAnswer.count, hlt, hlt.not_ge]
      | err c => simp [iterationEvents, PollAnswer.count, hlt, hlt.not_ge]
    · simp [iterationEvents, PollAnswer.count, hge, hge.not_gt]
  | .ok, [index, value] =>
    rcases lt_or_ge index.toNat n with hlt | hge
    · simp [iterationEvents, PollAnswer.count, hlt, hlt.not_ge]
    · simp [iterationEvents, PollAnswer.count, hge, hge.not_gt]
  | .ok, b0 :: b1 :: b2 :: rest => simp [iterationEvents, PollAnswer.count]

section

variable {n : Nat} {x : Nat → Byte} {a : PollAnswer} {transmit : Status}

/-- R151's condition, for a read frame. -/
theorem report_outOfRange_read_mem_iterationEvents {index : Byte} :
    .report (.outOfRange .read index) ∈ iterationEvents n x a transmit ↔ a = ⟨.ok, [index]⟩ ∧ n ≤ index.toNat := by
  simp [report_mem_iterationEvents]

/-- R151's condition, for a write frame. -/
theorem report_outOfRange_write_mem_iterationEvents {index : Byte} :
    .report (.outOfRange .write index) ∈ iterationEvents n x a transmit ↔
      ∃ value, a = ⟨.ok, [index, value]⟩ ∧ n ≤ index.toNat := by
  simp [report_mem_iterationEvents]

/-- R152's condition. -/
theorem report_malformedFrame_mem_iterationEvents {k : Nat} :
    .report (.malformedFrame k) ∈ iterationEvents n x a transmit ↔ a.st = .ok ∧ a.count = k ∧ 3 ≤ k := by
  have hcount : 3 ≤ a.count ∧ k = a.count ↔ a.count = k ∧ 3 ≤ k := by omega
  simp [report_mem_iterationEvents, hcount]

/-- A row that reports an index out of range hands nothing to the port (R151). -/
theorem countEvents_isTransmit_of_outOfRange {op : AccessOp} {index : Byte}
    (h : .report (.outOfRange op index) ∈ iterationEvents n x a transmit) :
    countEvents isTransmit (iterationEvents n x a transmit) = 0 := by
  cases op with
  | read =>
    obtain ⟨rfl, hge⟩ := report_outOfRange_read_mem_iterationEvents.mp h
    simp [iterationEvents, hge.not_gt, countEvents, isTransmit]
  | write =>
    obtain ⟨value, rfl, hge⟩ := report_outOfRange_write_mem_iterationEvents.mp h
    simp [iterationEvents, hge.not_gt, countEvents, isTransmit]

end

/-! ### R151 and R152 -/

theorem countEvents_ne_zero_of_mem {p : Event → Bool} {e : Event} {es : List Event} (he : e ∈ es) (hp : p e = true) :
    countEvents p es ≠ 0 :=
  (List.length_pos_of_mem (List.mem_filter.mpr ⟨he, hp⟩)).ne'

/-- Settles O30: the row of R109 reports the error under R151's condition, and an iteration that reports keeps the bank. -/
theorem outOfRangeReportedExactlyForBadIndex : Obligations.OutOfRangeReportedExactlyForBadIndex := by
  intro s hl hc hs
  obtain ⟨t, hstep, htrace, hctl, -, htx⟩ := step_polling_row hl hc hs
  refine ⟨t, _, hstep, htrace, fun _ => report_outOfRange_read_mem_iterationEvents,
    fun _ => report_outOfRange_write_mem_iterationEvents, fun ⟨op, index, hmem⟩ => ?_⟩
  have hbank : t.x = s.x := step_polling_x_of_report hc hstep htrace (countEvents_ne_zero_of_mem hmem rfl)
  exact ⟨hbank, hctl, htx, countEvents_isTransmit_of_outOfRange hmem⟩

/-- Settles O31: the row of R109 reports the error under R152's condition, and an iteration that reports keeps the bank. -/
theorem malformedReportedExactlyForThreeBytesOrMore : Obligations.MalformedReportedExactlyForThreeBytesOrMore := by
  intro s hl hc hs
  obtain ⟨t, hstep, htrace, hctl, hrx, -⟩ := step_polling_row hl hc hs
  refine ⟨t, _, hstep, htrace, fun _ => report_malformedFrame_mem_iterationEvents, fun ⟨k, hmem⟩ => ?_⟩
  have hbank : t.x = s.x := step_polling_x_of_report hc hstep htrace (countEvents_ne_zero_of_mem hmem rfl)
  exact ⟨hbank, hctl, hrx⟩

end Sys2Proof.Machine
end

section
/-! Decoder and encoder against each other (30_encoding.md R60, R61, 41_transaction_decoder.md): the round trip both ways, and
the pairs of a count and a buffer that the decoder refuses. -/

namespace Sys2Proof

/-- The frame of a well-formed instruction decodes to it: its length selects the class, its bytes are the operands. -/
theorem decode_encode {i : Instr} {frame : List Byte} (hi : i.wellFormed = true) (h : encode i = some frame) :
    decode frame.length frame = .ok i := by
  cases i with
  | idle => cases h; exact decode_zero []
  | rd index => cases h; exact decode_one index []
  | wr index value => cases h; exact decode_two index value []
  | bad n => cases h; rw [List.length_replicate]; exact decode_of_three_le _ (of_decide_eq_true hi)
  | start => cases h
  | stop => cases h

/-- R70: the two lifecycle events, and nothing else, have no encoding. -/
theorem encode_eq_none_iff {i : Instr} : encode i = none ↔ i = .start ∨ i = .stop := by
  cases i <;> simp [encode]

/-- Settles O5: the round trip, and which instructions it leaves out. -/
theorem decodeOfEncodeIsTheInstruction : Obligations.DecodeOfEncodeIsTheInstruction :=
  fun _ hi => ⟨fun _ h => decode_encode hi h, encode_eq_none_iff⟩

/-- A count of 1 or 2 with too few bytes is refused, with the two numbers named. -/
theorem decode_of_length_lt {n : Nat} {buf : List Byte} (hn : n ≤ 2) (h : buf.length < n) :
    decode n buf = .error (.shortBuffer n buf.length) := by
  match n, buf with
  | 0, _ => simp at h
  | 1, [] | 2, [] | 2, [_] => rfl
  | 1, _ :: _ | 2, _ :: _ :: _ => simp at h
  | k + 3, _ => omega

/-- Settles O3: too few bytes are refused, and wherever the bytes of the class are held the decoder answers. -/
theorem decodeRefusesExactlyShortBuffers : Obligations.DecodeRefusesExactlyShortBuffers := by
  refine fun n buf => ⟨fun ⟨hn, h⟩ => decode_of_length_lt hn h, fun ⟨e, he⟩ => ?_⟩
  by_contra hheld
  obtain ⟨i, hi⟩ := exists_decode_ok (show n ≤ buf.length ∨ 3 ≤ n by omega)
  cases he.symm.trans hi

/-- What a whole frame decodes to has an encoding of the frame's length: the length is the opcode (R60). -/
theorem exists_encode_of_decode {n : Nat} {buf : List Byte} {i : Instr} (h : decode n buf = .ok i) :
    ∃ frame, encode i = some frame ∧ frame.length = n := by
  obtain ⟨rfl, rfl⟩ | ⟨rfl, b0, rfl⟩ | ⟨rfl, b0, b1, rfl⟩ | ⟨-, rfl⟩ := decode_ok_cases h
  · exact ⟨[], rfl, rfl⟩
  · exact ⟨[b0], rfl, rfl⟩
  · exact ⟨[b0, b1], rfl, rfl⟩
  · exact ⟨_, rfl, List.length_replicate⟩

/-- A frame of fewer than three bytes is all operands, so it is the encoding of what it decodes to. -/
theorem encode_of_decode_of_length_lt {buf : List Byte} {i : Instr} (hlen : buf.length < 3)
    (h : decode buf.length buf = .ok i) : encode i = some buf := by
  match buf, h with
  | [], h | [_], h | [_, _], h => cases h; rfl
  | _ :: _ :: _ :: _, _ => simp at hlen; omega

/-- Settles O6: a short frame is given back, and any encoding decodes to the well-formed instruction it encodes. -/
theorem encodeOfDecodeIsTheFrame : Obligations.EncodeOfDecodeIsTheFrame := by
  refine fun buf i h => ⟨fun hlen => encode_of_decode_of_length_lt hlen h, ?_⟩
  obtain ⟨frame, hframe, hlen⟩ := exists_encode_of_decode h
  obtain ⟨-, hwf⟩ := isFrame_and_wellFormed_of_decode h
  exact ⟨frame, hframe, hlen, decode_encode hwf hframe⟩

/-- Settles O4: the table words by evaluation, the count of a million by R90's fourth class. -/
theorem writtenOutFramesDecode : Obligations.WrittenOutFramesDecode :=
  ⟨rfl, by decide, by decide, by decide, decode_of_three_le [] (by omega)⟩

end Sys2Proof
end

section
/-! The canonical form of the bank (10_state.md section 2): a bank in the form is its readings, so the laws of writes
(20_memory.md R83) hold as equality of data. -/

namespace Sys2Proof.Machine

open Sys2Proof

/-- Where addresses rise, a pair is listed exactly where its address looks up its byte. -/
theorem Memory.mem_iff_lookup {m : Memory} (h : m.Pairwise (fun c d => c.1 < d.1)) {a : Nat} {v : Byte} :
    (a, v) ∈ m ↔ Memory.lookup a m = some v := by
  induction m with
  | nil => simp [Memory.lookup]
  | cons c m ih =>
    obtain ⟨hc, hm⟩ := List.pairwise_cons.mp h
    simp only [Memory.lookup, List.mem_cons, ih hm]
    split
    · next hac => simp [Prod.ext_iff, hac, Memory.lookup_of_lt hc, eq_comm]
    · next hac => simp [Prod.ext_iff, hac]

/-- The pairs of a canonical bank, by its readings: those below n that differ from the reset contents. -/
theorem Memory.mem_iff_read {n : Nat} {m : Memory} (h : m.wf n) {a : Nat} {v : Byte} :
    (a, v) ∈ m ↔ a < n ∧ v ≠ resetByte a ∧ m.read a = v := by
  obtain ⟨hrising, hlisted⟩ := h
  constructor
  · intro hmem
    obtain ⟨hlt, hne⟩ := hlisted _ hmem
    exact ⟨hlt, hne, by rw [Memory.read, (Memory.mem_iff_lookup hrising).mp hmem]; rfl⟩
  · rintro ⟨-, hne, hread⟩
    rw [Memory.mem_iff_lookup hrising]
    unfold Memory.read at hread
    cases hlook : Memory.lookup a m with
    | none => rw [hlook] at hread; exact absurd hread.symm hne
    | some w => rw [hlook] at hread; exact congrArg some hread

/-- Rising addresses are distinct, so no pair is listed twice. -/
theorem Memory.nodup_of_rising {m : Memory} (h : m.Pairwise (fun c d => c.1 < d.1)) : m.Nodup :=
  h.imp fun hlt heq => hlt.ne (congrArg Prod.fst heq)

/-- Settles O12: the two lists hold the same pairs, and there is one way to list pairs with their addresses rising. -/
theorem canonicalBanksThatReadAlikeAreEqual : Obligations.CanonicalBanksThatReadAlikeAreEqual := by
  intro n m m' hm hm' hread
  have hmem : ∀ c : Host.Cell, c ∈ m ↔ c ∈ m' := fun ⟨a, v⟩ => by
    rw [Memory.mem_iff_read hm, Memory.mem_iff_read hm']
    exact and_congr_right fun ha => by rw [hread a ha]
  have hperm : m.Perm m' :=
    (List.perm_ext_iff_of_nodup (Memory.nodup_of_rising hm.1) (Memory.nodup_of_rising hm'.1)).mpr hmem
  exact hperm.eq_of_pairwise (fun _ _ _ _ hlt hgt => absurd hgt hlt.asymm) hm.1 hm'.1

/-- O12 with the readings as functions, the form in which the laws of writes are proved. -/
theorem Memory.eq_of_read_eq {n : Nat} {m m' : Memory} (hm : m.wf n) (hm' : m'.wf n) (h : m.read = m'.read) : m = m' :=
  canonicalBanksThatReadAlikeAreEqual n m m' hm hm' fun a _ => congrFun h a

theorem bankWith_eq_update (x : Nat → Byte) (a : Nat) (v : Byte) : bankWith x a v = Function.update x a v := by
  funext b
  rw [Function.update_apply]
  rfl

/-- Settles O13: both sides are canonical banks, and they read alike by the laws of updating a function. -/
theorem writesSettleByRegister : Obligations.WritesSettleByRegister := by
  intro n m a b v w hm ha hb
  have hwf : ∀ {c u m'}, c < n → Memory.wf n m' → (Memory.write m' c u).wf n := fun hc h => Memory.wf_write h hc
  refine ⟨Memory.eq_of_read_eq (hwf ha (hwf ha hm)) (hwf ha hm) ?_,
    Memory.eq_of_read_eq (hwf ha (hwf ha hm)) (hwf ha hm) ?_,
    fun hab => Memory.eq_of_read_eq (hwf hb (hwf ha hm)) (hwf ha (hwf hb hm)) ?_⟩
  · simp only [Memory.read_write, bankWith_eq_update, Function.update_idem]
  · simp only [Memory.read_write, bankWith_eq_update, Function.update_idem]
  · simp only [Memory.read_write, bankWith_eq_update]
    exact Function.update_comm hab v w m.read

/-- Settles O11: entry k of the table is made from entry k of the range. -/
theorem snapshotListsEveryRegisterInOrder : Obligations.SnapshotListsEveryRegisterInOrder :=
  fun s => ⟨length_snapshot s, fun k hk => by simp [snapshot, List.getElem?_range hk]⟩

end Sys2Proof.Machine
end

section
/-! The instructions one by one (42_slave_controller.md section 2, 43_lifecycle.md): `exec` is each instruction's effect where
its event can happen; the exact state each effect leaves, and what it keeps. -/

namespace Sys2Proof.Machine

open Sys2Proof

/-! ### `exec` as an effect under a requirement -/

/-- The controller state an instruction's event requires (R100, R131, R134). -/
def requiredCtl : Instr → Ctl
  | .start => .initializing
  | .idle | .rd _ | .wr _ _ | .bad _ | .stop => .polling

/-- What an instruction does where it can happen. -/
def effectOf : Instr → State → State
  | .idle => serviceIdle
  | .rd index => serviceRead index
  | .wr index value => serviceWrite index value
  | .bad n => raise (.malformedFrame n)
  | .start => startUp
  | .stop => close

theorem exec_eq_whenIn (i : Instr) : exec i = whenIn (requiredCtl i) (effectOf i) := by
  cases i <;> rfl

theorem exec_next {i : Instr} {s t : State} :
    exec i s = .next t ↔ s.params.legal = true ∧ s.ctl = requiredCtl i ∧ t = effectOf i s := by
  rw [exec_eq_whenIn]
  exact whenIn_next

theorem exec_of (i : Instr) {s : State} (hl : s.params.legal = true) (hc : s.ctl = requiredCtl i) :
    exec i s = .next (effectOf i s) :=
  exec_next.mpr ⟨hl, hc, rfl⟩

theorem requiredCtl_eq_polling {i : Instr} (h : i.isFrame = true ∨ i = .stop) : requiredCtl i = .polling := by
  cases i with
  | start => simp [Instr.isFrame] at h
  | idle | rd | wr | bad | stop => rfl

/-- Settles O22: the effect's requirement fails. -/
theorem eventsOutsideTheirStateAreRefused : Obligations.EventsOutsideTheirStateAreRefused := by
  refine fun s hl => ⟨fun i hi hc => ?_, fun hc => whenIn_elsewhere startUp hl hc⟩
  rw [exec_eq_whenIn, requiredCtl_eq_polling hi]
  exact whenIn_elsewhere _ hl hc

/-- R5, for a step. -/
theorem step_illegal {s : State} (hl : s.params.legal ≠ true) : step s = .refused .illegalParameters := by
  unfold step stepFrom; rw [if_neg hl]

/-- Settles O23: everything asks whether N is admitted before anything else. -/
theorem onlyOneTo255RegistersAreAdmitted : Obligations.OnlyOneTo255RegistersAreAdmitted := by
  have hout : ∀ p : Params, p.n = 0 ∨ 256 ≤ p.n → p.legal ≠ true := fun p hp => by rw [ne_eq, legal_iff]; omega
  refine ⟨fun s hs => ⟨fun i => ?_, step_illegal (hout _ hs)⟩, fun p e => ⟨fun hp => ?_, fun hp => ?_⟩⟩
  · rw [exec_eq_whenIn]
    exact whenIn_illegal _ (hout _ hs)
  · exact if_pos (legal_iff.mpr hp)
  · exact if_neg (hout _ hp)

/-! ### The exact states -/

/-- States are equal field by field. -/
theorem State.eq_of_fields {s t : State} (hx : s.x = t.x) (hctl : s.ctl = t.ctl) (hrx : s.rx = t.rx) (htx : s.tx = t.tx)
    (hfatal : s.fatal = t.fatal) (hparams : s.params = t.params) (henv : s.env = t.env) (htrace : s.trace = t.trace) :
    s = t := by
  cases s
  cases t
  simp_all

/-- Settles O40: by the definition, error by error. -/
theorem raisingAnErrorOnlyReportsIt : Obligations.RaisingAnErrorOnlyReportsIt := by
  refine fun s => ⟨fun _ _ => rfl, fun _ => rfl, fun _ => rfl, fun op st hop => ?_,
    fun _ _ => rfl, fun _ => rfl, fun _ _ => rfl, rfl⟩
  cases op with
  | enable => exact absurd rfl hop
  | poll | transmit | disable => rfl

/-- Settles O15: a sent byte, then the snapshot or the report. -/
theorem readInRangeSendsTheRegister : Obligations.ReadInRangeSendsTheRegister := by
  intro s index hl hc hlt
  rw [exec_of (.rd index) hl hc]
  refine congrArg _ ((serviceRead_inRange hlt).trans ?_)
  cases h : transmitAnswer s with
  | ok => exact State.eq_of_fields rfl rfl rfl rfl rfl rfl rfl (by simp [h, snapshot_eq_bankTable])
  | err c => exact State.eq_of_fields rfl rfl rfl rfl rfl rfl rfl (by simp [h])

/-- Settles O16: the error alone. -/
theorem readOutOfRangeSendsNothing : Obligations.ReadOutOfRangeSendsNothing := by
  intro s index hl hc hge
  rw [exec_of (.rd index) hl hc]
  exact congrArg _ (serviceRead_outOfRange hge)

/-- Settles O17: the bank is written at the index, and the snapshot is of the written bank. -/
theorem writeInRangeStoresTheValue : Obligations.WriteInRangeStoresTheValue := by
  intro s index value hl hc hlt
  refine ⟨_, exec_of (.wr index value) hl hc, ?_⟩
  rw [effectOf, serviceWrite_inRange value hlt, snapshot_writeDone]
  exact ⟨Memory.read_write_same _ _ _, fun _ ha => Memory.read_write_other _ _ ha, rfl⟩

/-- Settles O18: the error alone. -/
theorem writeOutOfRangeChangesNothing : Obligations.WriteOutOfRangeChangesNothing := by
  intro s index value hl hc hge
  rw [exec_of (.wr index value) hl hc]
  exact congrArg _ (serviceWrite_outOfRange value hge)

/-- Settles O19: the meaning of `BAD` is the error's raising. -/
theorem malformedFrameOnlyWarns : Obligations.MalformedFrameOnlyWarns :=
  fun _ n hl hc _ => exec_of (.bad n) hl hc

/-- `Start()` whose enabling the port answers with success (R131). -/
theorem startUp_of_ok {s : State} (h : setEnabledAnswer s = .ok) : startUp s = setCtl .polling (enableCalled true s) := by
  unfold startUp; simp only [h]

/-- `StartFailed(st)` (R132). -/
theorem startUp_of_err {s : State} {c : Nat} (h : setEnabledAnswer s = .err c) :
    startUp s = raise (.transferFailure .enable (.err c)) (enableCalled true s) := by
  unfold startUp; simp only [h]; rfl

/-- Settles O20: the enable call, then `Polling` or the failure's entry. -/
theorem startEnablesThePort : Obligations.StartEnablesThePort := by
  intro s hl hc
  rw [exec_of .start hl hc]
  refine ⟨fun h => congrArg _ ((startUp_of_ok h).trans ?_), fun c h => congrArg _ ((startUp_of_err h).trans ?_)⟩
  · exact State.eq_of_fields rfl rfl rfl rfl rfl rfl rfl (by simp [h])
  · exact State.eq_of_fields rfl rfl rfl rfl rfl rfl rfl (by simp [h])

/-- Settles O21: the disable call and cleared buffers, with the report where the call fails. -/
theorem stopDisablesThePort : Obligations.StopDisablesThePort := by
  intro s hl hc
  have hanswer : setEnabledAnswer (setCtl .closing s) = setEnabledAnswer s := rfl
  rw [exec_of .stop hl hc]
  refine ⟨fun h => congrArg _ ((close_of_ok h).trans ?_), fun c h => congrArg _ ((close_of_err h).trans ?_)⟩
  · exact State.eq_of_fields rfl rfl rfl rfl rfl rfl rfl (by simp [hanswer, h])
  · exact State.eq_of_fields rfl rfl rfl rfl rfl rfl rfl (by simp [hanswer, h])

/-! ### What each effect keeps -/

/-- A read frame takes a transmit answer exactly in range, and no other answer. -/
theorem serviceRead_env (index : Byte) (s : State) : (serviceRead index s).env = { s.env with
    transmit := if index.toNat < s.params.n then s.env.transmit.advance else s.env.transmit } := by
  rcases lt_or_ge index.toNat s.params.n with hlt | hge
  · rw [serviceRead_inRange hlt, if_pos hlt]
    cases transmitAnswer s with
    | ok => rfl
    | err c => rfl
  · rw [serviceRead_outOfRange hge, if_neg hge.not_gt]
    rfl

theorem serviceRead_trace_grows (index : Byte) (s : State) : s.trace <+: (serviceRead index s).trace := by
  rcases lt_or_ge index.toNat s.params.n with hlt | hge
  · rw [serviceRead_inRange hlt]
    cases transmitAnswer s <;> simp
  · rw [serviceRead_outOfRange hge]
    exact List.prefix_append _ _

/-- A write frame stores exactly in range. -/
theorem serviceWrite_x (index value : Byte) (s : State) : (serviceWrite index value s).x =
    if index.toNat < s.params.n then s.x.write index.toNat value else s.x := by
  rcases lt_or_ge index.toNat s.params.n with hlt | hge
  · rw [serviceWrite_inRange value hlt, if_pos hlt]
    rfl
  · rw [serviceWrite_outOfRange value hge, if_neg hge.not_gt]
    rfl

/-- A write frame makes no port call (R105). -/
theorem serviceWrite_env (index value : Byte) (s : State) : (serviceWrite index value s).env = s.env := by
  rcases lt_or_ge index.toNat s.params.n with hlt | hge
  · rw [serviceWrite_inRange value hlt]
    rfl
  · rw [serviceWrite_outOfRange value hge]
    rfl

/-- The events of a `PortSetEnabled` call: the call, and the report of its failure (R131, R132, R134). -/
def enableEvents (b : Bool) (address : Nat) (st : Status) : List Event :=
  .callSetEnabled b address st ::
    match st with
    | .ok => []
    | .err c => [.report (.transferFailure (setEnabledOp b) (.err c))]

theorem startUp_trace (s : State) :
    (startUp s).trace = s.trace ++ enableEvents true s.params.slaveAddr (setEnabledAnswer s) := by
  cases h : setEnabledAnswer s with
  | ok => simp [startUp_of_ok h, enableEvents, h]
  | err c => simp [startUp_of_err h, enableEvents, h, setEnabledOp, portMode]

theorem close_trace (s : State) :
    (close s).trace = s.trace ++ enableEvents false s.params.slaveAddr (setEnabledAnswer s) := by
  have hanswer : setEnabledAnswer (setCtl .closing s) = setEnabledAnswer s := rfl
  cases h : setEnabledAnswer s with
  | ok => simp [close_of_ok h, enableEvents, hanswer, h]
  | err c => simp [close_of_err h, enableEvents, hanswer, h, setEnabledOp, portMode]

/-- The startup step keeps the bank, both buffers and the parameters, whatever the port answers. -/
theorem startUp_keeps (s : State) : (startUp s).x = s.x ∧ (startUp s).rx = s.rx ∧ (startUp s).tx = s.tx ∧
    (startUp s).params = s.params := by
  cases h : setEnabledAnswer s with
  | ok => rw [startUp_of_ok h]; exact ⟨rfl, rfl, rfl, rfl⟩
  | err c => rw [startUp_of_err h]; simp

theorem startUp_env (s : State) :
    (startUp s).env = { s.env with setEnabled := s.env.setEnabled.advance } := by
  cases h : setEnabledAnswer s with
  | ok => rw [startUp_of_ok h]; rfl
  | err c => rw [startUp_of_err h]; rfl

theorem close_env (s : State) : (close s).env = { s.env with setEnabled := s.env.setEnabled.advance } := by
  cases h : setEnabledAnswer s with
  | ok => rw [close_of_ok h]; rfl
  | err c => rw [close_of_err h]; rfl

/-- Settles O24: instruction by instruction, from what its effect keeps. -/
theorem nonStoringInstructionsKeepTheBank : Obligations.NonStoringInstructionsKeepTheBank := by
  intro i s t hwr h
  obtain ⟨-, -, rfl⟩ := exec_next.mp h
  cases i with
  | idle => simp [effectOf, serviceIdle]
  | rd index => simp [effectOf, serviceRead_keeps, serviceRead_env, serviceRead_trace_grows]
  | wr index value => exact absurd rfl (hwr index value)
  | bad n => simp [effectOf]
  | start => simp [effectOf, startUp_keeps, startUp_env, startUp_trace]
  | stop => simp [effectOf, close_keeps, close_env, close_trace]

/-- Settles O25: in range, the register written is the one the index names; out of range, the error alone. -/
theorem writeFrameKeepsAllButItsRegister : Obligations.WriteFrameKeepsAllButItsRegister := by
  intro s t index value h
  obtain ⟨-, -, rfl⟩ := exec_next.mp h
  rw [effectOf]
  rcases lt_or_ge index.toNat s.params.n with hlt | hge
  · rw [serviceWrite_inRange value hlt, inRange_iff.mpr hlt]
    exact ⟨fun a ha => Memory.read_write_other _ _ ha, nofun, rfl, rfl, rfl, rfl, rfl, List.prefix_append _ _⟩
  · rw [serviceWrite_outOfRange value hge]
    exact ⟨fun _ _ => rfl, fun _ _ => rfl, rfl, rfl, rfl, rfl, rfl, List.prefix_append _ _⟩

end Sys2Proof.Machine
end

section
/-! The step (42_slave_controller.md R100, 43_lifecycle.md): what runs in it, the controller state it ends in, and where the
machine stops (60_exceptions.md R157). -/

namespace Sys2Proof.Machine

open Sys2Proof

/-! ### What a step runs -/

/-- The state in which a delivered frame's meaning runs, field by field (R100). -/
theorem fetched_of_ok {s : State} {buf : List Byte} (ha : pollAnswer s = ⟨.ok, buf⟩) : fetched s = { s with
    rx := buf
    env := { s.env with shutdown := s.env.shutdown.advance, poll := s.env.poll.advance }
    trace := s.trace ++ [.callPoll .ok buf.length buf] } :=
  State.eq_of_fields rfl rfl (by simp [fetched, ha]) rfl rfl rfl rfl (fetched_trace_of_ok ha)

/-- Settles O26: the step runs the frame in the fetched state. -/
theorem stepRunsTheDecodedFrame : Obligations.StepRunsTheDecodedFrame := by
  intro s i buf hl hc hs ha hd
  rw [step_frame hl hc hs (by rw [ha]) (by rw [ha]; exact hd), fetched_of_ok ha]

/-- Settles O27: the two events that no poll delivers. -/
theorem stepRunsTheLifecycleEvents : Obligations.StepRunsTheLifecycleEvents :=
  ⟨fun _ => step_initializing, fun _ => step_shutdown⟩

theorem decodeTableWord_eq_some {nbits w : Nat} {i : Instr} : decodeTableWord nbits w = some i ↔
    decode (tableBytes nbits w).length (tableBytes nbits w) = .ok i := by
  unfold decodeTableWord
  cases decode (tableBytes nbits w).length (tableBytes nbits w) <;> simp

/-- Settles O28: the laid-down answers are the next ones, so the fetched state holds the frame. -/
theorem placedFrameRunsNext : Obligations.PlacedFrameRunsNext :=
  fun s nbits w _ hl hi => ⟨fetched (s.withFetchWord nbits w),
    step_frame (s := s.withFetchWord nbits w) hl rfl rfl rfl (decodeTableWord_eq_some.mp hi), rfl, rfl, rfl, rfl, rfl⟩

/-- Settles O29: the report, and the end of the iteration. -/
theorem failedPollIsOnlyReported : Obligations.FailedPollIsOnlyReported := by
  intro s c buf hl hc hs ha
  rw [step_polling hl hc hs, afterPoll_failed (c := c) _ (by rw [ha])]
  exact congrArg _ (State.eq_of_fields rfl hc.symm rfl rfl rfl rfl rfl (by simp [pollFailed, ha, PollAnswer.count]))

/-! ### Where a step stops -/

theorem step_closing {s : State} (hl : s.params.legal = true) (hc : s.ctl = .closing) : step s = .next s := by
  unfold step stepFrom; simp only [hl, if_true, hc]

theorem step_failed {s : State} (hl : s.params.legal = true) (hc : s.ctl = .failed) :
    step s = .fault .startupFailed := by
  unfold step stepFrom; simp only [hl, if_true, hc]

theorem step_midIteration {s : State} (hl : s.params.legal = true) (hc : betweenIterations s.ctl = false) :
    step s = .refused .midIteration := by
  unfold step stepFrom
  cases h : s.ctl <;> simp [h, hl, betweenIterations] at hc ⊢

theorem close_ctl (s : State) : (close s).ctl = .closing := by
  cases h : setEnabledAnswer s with
  | ok => rw [close_of_ok h]; rfl
  | err c => rw [close_of_err h]; rfl

/-- Every iteration finishes, closing or ready for the next poll. -/
theorem step_polling_finishes {s : State} (hl : s.params.legal = true) (hc : s.ctl = .polling) :
    ∃ t, step s = .next t ∧ t.ctl = if shutdownLevel s then .closing else .polling := by
  cases hs : shutdownLevel s with
  | true =>
    rw [step_shutdown hl hc hs]
    exact ⟨_, exec_of .stop (s := sampled s) hl hc, close_ctl _⟩
  | false =>
    obtain ⟨t, hstep, -, hctl, -⟩ := step_polling_row hl hc hs
    exact ⟨t, hstep, hctl⟩

/-- Between iterations a step of an admitted N goes on, or stops in `Failed`. -/
theorem step_of_betweenIterations {s : State} (hl : s.params.legal = true) (hc : betweenIterations s.ctl = true) :
    (∃ t, step s = .next t) ∨ (s.ctl = .failed ∧ step s = .fault .startupFailed) := by
  cases h : s.ctl with
  | initializing => exact .inl ⟨_, (step_initializing hl h).trans (exec_of .start hl h)⟩
  | polling =>
    obtain ⟨t, hstep, -⟩ := step_polling_finishes hl h
    exact .inl ⟨t, hstep⟩
  | closing => exact .inl ⟨s, step_closing hl h⟩
  | failed => exact .inr ⟨rfl, step_failed hl h⟩
  | servicingRead | servicingWrite | idling | rejectingMalformed => rw [h] at hc; cases hc

/-- Settles O37: an iteration finishes, and in the invariant's controller states a step goes on or is the fault. -/
theorem everyIterationFinishes : Obligations.EveryIterationFinishes := by
  refine ⟨fun s => step_polling_finishes, fun s r hinv hr => ?_⟩
  obtain ⟨t, ht⟩ | ⟨-, hf⟩ := step_of_betweenIterations hinv.legal hinv.ctl
  · cases ht.symm.trans hr
  · cases hf.symm.trans hr

/-- A step is a fault in `Failed` alone. -/
theorem step_fault_iff {s : State} {f : Fault} :
    step s = .fault f ↔ s.params.legal = true ∧ s.ctl = .failed ∧ f = .startupFailed := by
  constructor
  · intro h
    by_cases hl : s.params.legal = true
    · cases hc : betweenIterations s.ctl with
      | false => cases h.symm.trans (step_midIteration hl hc)
      | true =>
        obtain ⟨t, ht⟩ | ⟨hfailed, hf⟩ := step_of_betweenIterations hl hc
        · cases h.symm.trans ht
        · cases h.symm.trans hf
          exact ⟨hl, hfailed, rfl⟩
    · cases h.symm.trans (step_illegal hl)
  · rintro ⟨hl, hc, rfl⟩
    exact step_failed hl hc

/-- A step that ends in `Failed` was a startup step whose enable call failed. -/
theorem step_to_failed {s t : State} (h : step s = .next t) (ht : t.ctl = .failed) :
    s.ctl = .initializing ∧ (∃ c, setEnabledAnswer s = .err c) ∧ t.fatal = true := by
  obtain ⟨hl, hcase⟩ := step_next_cases h
  cases hcase with
  | started hc =>
    cases ha : setEnabledAnswer s with
    | ok => rw [startUp_of_ok ha] at ht; cases ht
    | err c => exact ⟨hc, ⟨c, rfl⟩, by rw [startUp_of_err ha]; rfl⟩
  | closed => cases (close_ctl _).symm.trans ht
  | stayed hc => cases hc.symm.trans ht
  | pollFailed | idle | rd | wr | bad => cases ht

/-- Settles O38: what leads to `Failed`, that a failed enable does, and that the fault is in `Failed` alone. -/
theorem onlyAFailedStartupStopsTheMachine : Obligations.OnlyAFailedStartupStopsTheMachine := by
  refine ⟨fun s t => step_to_failed, fun s c hl hc ha => ?_, fun s f => step_fault_iff⟩
  refine ⟨startUp s, (step_initializing hl hc).trans (exec_of .start hl hc), ?_⟩
  rw [startUp_of_err ha]
  exact ⟨rfl, rfl, rfl⟩

/-- Settles O39: by induction on the number of steps in `Closing`; in `Failed` the first step is the fault. -/
theorem terminalStatesAreNeverLeft : Obligations.TerminalStatesAreNeverLeft := by
  refine fun s k hl => ⟨fun hc => ?_, fun hc => run_succ_of_fault k (step_failed hl hc)⟩
  induction k with
  | zero => exact run_zero s
  | succ k ih => exact (run_succ_of_next k (step_closing hl hc)).trans ih

end Sys2Proof.Machine
end

section
/-! The effects of a step (42_slave_controller.md section 3, R109): the events it appends, the bank it leaves, the answers it
takes. -/

namespace Sys2Proof.Machine

open Sys2Proof

/-! ### The events of a step -/

/-- The events a step appends, from each controller state in which a step is made. -/
def stepEvents (s : State) : List Event :=
  match s.ctl with
  | .initializing => enableEvents true s.params.slaveAddr (setEnabledAnswer s)
  | .polling =>
    if shutdownLevel s then enableEvents false s.params.slaveAddr (setEnabledAnswer s)
    else iterationEvents s.params.n s.x.read (pollAnswer s) (transmitAnswer s)
  | .closing | .failed | .servicingRead | .servicingWrite | .idling | .rejectingMalformed => []

theorem stepEvents_initializing {s : State} (hc : s.ctl = .initializing) :
    stepEvents s = enableEvents true s.params.slaveAddr (setEnabledAnswer s) := by
  simp only [stepEvents, hc]

theorem stepEvents_polling {s : State} (hc : s.ctl = .polling) : stepEvents s =
    if shutdownLevel s then enableEvents false s.params.slaveAddr (setEnabledAnswer s)
    else iterationEvents s.params.n s.x.read (pollAnswer s) (transmitAnswer s) := by
  simp only [stepEvents, hc]

theorem stepEvents_closing {s : State} (hc : s.ctl = .closing) : stepEvents s = [] := by
  simp only [stepEvents, hc]

/-- A step appends nothing, a `PortSetEnabled` call or a row of R109. -/
theorem stepEvents_cases (s : State) : stepEvents s = [] ∨
    (∃ b, stepEvents s = enableEvents b s.params.slaveAddr (setEnabledAnswer s)) ∨
    stepEvents s = iterationEvents s.params.n s.x.read (pollAnswer s) (transmitAnswer s) := by
  unfold stepEvents
  split
  · exact .inr (.inl ⟨true, rfl⟩)
  · split
    · exact .inr (.inl ⟨false, rfl⟩)
    · exact .inr (.inr rfl)
  all_goals exact .inl rfl

theorem step_trace {s t : State} (h : step s = .next t) : t.trace = s.trace ++ stepEvents s := by
  obtain ⟨hl, hcase⟩ := step_next_cases h
  cases hcase with
  | started hc =>
    rw [stepEvents_initializing hc]
    exact startUp_trace s
  | closed hc hs =>
    rw [stepEvents_polling hc, if_pos hs]
    exact close_trace (sampled s)
  | stayed hc => rw [stepEvents_closing hc, List.append_nil]
  | pollFailed hc hs | idle hc hs | rd hc hs | wr hc hs | bad hc hs =>
    obtain ⟨u, hu, htrace, -⟩ := step_polling_row hl hc hs
    cases h.symm.trans hu
    rw [stepEvents_polling hc, hs]
    exact htrace

/-- The counts that 42_slave_controller.md section 3 bounds, in a list of events with this many polls and enable calls. -/
structure EventCounts (polls enables : Nat) (es : List Event) : Prop where
  reportOrSnapshot : countEvents isReport es + countEvents isSnapshot es ≤ 1
  transmit         : countEvents isTransmit es ≤ 1
  backoff          : countEvents isBackoff es ≤ 1
  poll             : countEvents isPoll es = polls
  setEnabled       : countEvents isSetEnabled es = enables

theorem eventCounts_enableEvents (b : Bool) (address : Nat) (st : Status) :
    EventCounts 0 1 (enableEvents b address st) := by
  cases st with
  | ok => exact ⟨Nat.zero_le _, Nat.zero_le _, Nat.zero_le _, rfl, rfl⟩
  | err c => exact ⟨le_rfl, Nat.zero_le _, Nat.zero_le _, rfl, rfl⟩

/-- Row by row of R109. -/
theorem eventCounts_iterationEvents (n : Nat) (x : Nat → Byte) (a : PollAnswer) (transmit : Status) :
    EventCounts 1 0 (iterationEvents n x a transmit) := by
  obtain ⟨st, buf⟩ := a
  match st, buf with
  | .err c, _ => exact ⟨le_rfl, Nat.zero_le _, Nat.zero_le _, rfl, rfl⟩
  | .ok, [] => exact ⟨Nat.zero_le _, Nat.zero_le _, le_rfl, rfl, rfl⟩
  | .ok, [index] =>
    unfold iterationEvents
    dsimp only
    split
    · cases transmit with
      | ok => exact ⟨le_rfl, le_rfl, Nat.zero_le _, rfl, rfl⟩
      | err c => exact ⟨le_rfl, le_rfl, Nat.zero_le _, rfl, rfl⟩
    · exact ⟨le_rfl, Nat.zero_le _, Nat.zero_le _, rfl, rfl⟩
  | .ok, [index, value] =>
    unfold iterationEvents
    dsimp only
    split
    · exact ⟨le_rfl, Nat.zero_le _, Nat.zero_le _, rfl, rfl⟩
    · exact ⟨le_rfl, Nat.zero_le _, Nat.zero_le _, rfl, rfl⟩
  | .ok, _ :: _ :: _ :: _ => exact ⟨le_rfl, Nat.zero_le _, Nat.zero_le _, rfl, rfl⟩

/-- Settles O33: the events a step appends, counted for a closing and for a polling iteration. -/
theorem iterationEmitsAtMostOneOfEach : Obligations.IterationEmitsAtMostOneOfEach := by
  refine ⟨fun s t h => step_trace h ▸ List.prefix_append _ _, fun s t hc h => ⟨_, step_trace h, ?_⟩⟩
  have hcounts : EventCounts (if shutdownLevel s then 0 else 1) (if shutdownLevel s then 1 else 0) (stepEvents s) := by
    rw [stepEvents_polling hc]
    cases shutdownLevel s with
    | true => exact eventCounts_enableEvents _ _ _
    | false => exact eventCounts_iterationEvents _ _ _ _
  have hone := hcounts.reportOrSnapshot
  exact ⟨by omega, by omega, hcounts.transmit, hcounts.backoff, hone, hcounts.poll, hcounts.setEnabled⟩

/-! ### The bank after a step -/

/-- An iteration leaves exactly the bank of its row of R109. -/
theorem step_polling_read {s t : State} (hc : s.ctl = .polling) (hs : shutdownLevel s = false)
    (h : step s = .next t) : t.x.read = iterationBank s.params.n s.x.read (pollAnswer s) := by
  obtain ⟨-, hcase⟩ := step_next_cases h
  cases hcase with
  | started hi => cases hc.symm.trans hi
  | stayed hcl => cases hc.symm.trans hcl
  | closed _ hseen => cases hs.symm.trans hseen
  | pollFailed _ _ c ha => simp [iterationBank, ha]
  | idle _ _ ha | bad _ _ _ _ _ _ ha => rw [ha]; rfl
  | rd _ _ index ha =>
    rw [ha]
    exact congrArg Memory.read (serviceRead_keeps index (fetched s)).1
  | wr _ _ index value ha =>
    rw [ha, endIteration_x, serviceWrite_x, apply_ite Memory.read, Memory.read_write]
    rfl

/-- A step that is not an iteration with a poll keeps the bank. -/
theorem step_x_of_not_polled {s t : State} (h : step s = .next t)
    (hnot : ¬(s.ctl = .polling ∧ shutdownLevel s = false)) : t.x = s.x := by
  obtain ⟨-, hcase⟩ := step_next_cases h
  cases hcase with
  | started => exact (startUp_keeps s).1
  | closed => exact (close_keeps (sampled s)).1
  | stayed => rfl
  | pollFailed hc hs | idle hc hs | rd hc hs | wr hc hs | bad hc hs => exact absurd ⟨hc, hs⟩ hnot

/-- The one row of R109 that changes the bank. -/
theorem iterationBank_cases (n : Nat) (x : Nat → Byte) (a : PollAnswer) : iterationBank n x a = x ∨
    ∃ index value, a = ⟨.ok, [index, value]⟩ ∧ index.toNat < n ∧
      iterationBank n x a = bankWith x index.toNat value := by
  obtain ⟨st, buf⟩ := a
  match st, buf with
  | .ok, [index, value] =>
    by_cases hlt : index.toNat < n
    · exact .inr ⟨index, value, rfl, hlt, if_pos hlt⟩
    · exact .inl (if_neg hlt)
  | .err _, _ | .ok, [] | .ok, [_] | .ok, _ :: _ :: _ :: _ => exact .inl rfl

/-- Settles O34: only an iteration with a poll can change the bank, and only by the row of an in-range write frame. -/
theorem onlyAnInRangeWriteFrameChangesARegister : Obligations.OnlyAnInRangeWriteFrameChangesARegister := by
  intro s t a h hne
  by_cases hpolled : s.ctl = .polling ∧ shutdownLevel s = false
  · obtain ⟨hc, hs⟩ := hpolled
    rw [step_polling_read hc hs h] at hne ⊢
    obtain hkept | ⟨index, value, ha, hlt, hbank⟩ := iterationBank_cases s.params.n s.x.read (pollAnswer s)
    · rw [hkept] at hne
      exact absurd rfl hne
    · rw [hbank] at hne ⊢
      have hindex : a = index.toNat := by
        by_contra hother
        exact hne (if_neg hother)
      exact ⟨hc, hs, hindex ▸ hlt, index, value, ha, hindex.symm, if_pos hindex⟩
  · rw [step_x_of_not_polled h hpolled] at hne
    exact absurd rfl hne

/-- Settles O35: what every iteration keeps, and the bank's row for an in-range write frame and for any other answer. -/
theorem iterationSideEffectsAreBounded : Obligations.IterationSideEffectsAreBounded := by
  intro s t hc h
  obtain ⟨hfatal, hparams⟩ := step_polling_keeps hc h
  refine ⟨hfatal, hparams, fun index value hs ha hin b hb => ?_, fun hquiet b => ?_⟩
  · rw [step_polling_read hc hs h, ha]
    exact (congrFun (if_pos (inRange_iff.mp hin)) b).trans (if_neg hb)
  · by_cases hpolled : s.ctl = .polling ∧ shutdownLevel s = false
    · obtain ⟨-, hs⟩ := hpolled
      rw [step_polling_read hc hs h]
      obtain hkept | ⟨index, value, ha, hlt, -⟩ := iterationBank_cases s.params.n s.x.read (pollAnswer s)
      · rw [hkept]
      · obtain hseen | hout := hquiet
        · cases hs.symm.trans hseen
        · cases (hout index value ha).symm.trans (inRange_iff.mpr hlt)
    · rw [step_x_of_not_polled h hpolled]

/-! ### R109's table, whole -/

/-- An iteration takes one shutdown sample and one poll answer, and a transmit answer where its row transmits. -/
theorem step_polling_env {s t : State} (hc : s.ctl = .polling) (hs : shutdownLevel s = false) (h : step s = .next t) :
    t.env = { s.env with
      shutdown := s.env.shutdown.advance, poll := s.env.poll.advance,
      transmit := if iterationTransmits s.params.n (pollAnswer s) then s.env.transmit.advance
        else s.env.transmit } := by
  obtain ⟨-, hcase⟩ := step_next_cases h
  cases hcase with
  | started hi => cases hc.symm.trans hi
  | stayed hcl => cases hc.symm.trans hcl
  | closed _ hseen => cases hs.symm.trans hseen
  | pollFailed _ _ c ha => simp [iterationTransmits, ha]
  | idle _ _ ha | bad _ _ _ _ _ _ ha => rw [ha]; rfl
  | rd _ _ index ha =>
    rw [ha, endIteration_env, serviceRead_env]
    simp only [iterationTransmits, decide_eq_true_eq]
    rfl
  | wr _ _ index value ha =>
    rw [ha, endIteration_env, serviceWrite_env]
    rfl

/-- Settles O32: the row's events, its bank, and the answers it takes. -/
theorem iterationFollowsTheEventTable : Obligations.IterationFollowsTheEventTable := by
  intro s hl hc hs
  obtain ⟨t, h, htrace, hctl, hrx, htx⟩ := step_polling_row hl hc hs
  obtain ⟨hfatal, hparams⟩ := step_polling_keeps hc h
  exact ⟨t, h, htrace, congrFun (step_polling_read hc hs h), hctl, hrx, htx, hfatal, hparams,
    step_polling_env hc hs h⟩

/-- The row of R109 that transmits, up to its last event. -/
theorem iterationEvents_rd {n : Nat} {index : Byte} (hlt : index.toNat < n) (x : Nat → Byte) (transmit : Status) :
    ∃ last, iterationEvents n x ⟨.ok, [index]⟩ transmit =
      [.callPoll .ok 1 [index], .callTransmit [x index.toNat] transmit, last] :=
  ⟨_, if_pos hlt⟩

/-- Settles O46: the first iteration leaves the value in the register, and the second hands the register over. -/
theorem writeThenReadReturnsTheValue : Obligations.WriteThenReadReturnsTheValue := by
  intro s index value hl hc hlt hs ha
  obtain ⟨t, h, -, hctl, -⟩ := step_polling_row hl hc hs
  obtain ⟨-, hparams⟩ := step_polling_keeps hc h
  refine ⟨t, h, fun hst hat => ?_⟩
  have hvalue : t.x.read index.toNat = value := by
    rw [step_polling_read hc hs h, ha]
    exact (congrFun (if_pos hlt) _).trans (if_pos rfl)
  obtain ⟨u, hu, htrace, -⟩ := step_polling_row (hparams ▸ hl) hctl hst
  obtain ⟨last, hrow⟩ := iterationEvents_rd (hparams ▸ hlt) t.x.read (transmitAnswer t)
  exact ⟨u, last, hu, by rw [htrace, hat, hrow, hvalue]⟩

end Sys2Proof.Machine
end

section
/-! The OPEN parameters (00_scope.md section 4, R8, R9): putting other values of `BACKOFF`, `LOG_EN` and `EXIT_FAIL` into a state
commutes with every operation, and so with the step. -/

namespace Sys2Proof.Machine

open Sys2Proof

/-- The state with other values of the parameters that no rule reads. -/
def withOpen (backoff : Nat) (logEn : Bool) (exitFail : ExitFail) (s : State) : State :=
  { s with params := { s.params with backoff := backoff, logEn := logEn, exitFail := exitFail } }

/-- A change of the next state, where an outcome has one. -/
def mapNext (f : State → State) : Host.Outcome State Fault Refusal → Host.Outcome State Fault Refusal
  | .next t => .next (f t)
  | .fault r => .fault r
  | .refused r => .refused r

section

variable (backoff : Nat) (logEn : Bool) (exitFail : ExitFail) (s : State)

theorem raise_withOpen (e : SlaveError) :
    raise e (withOpen backoff logEn exitFail s) = withOpen backoff logEn exitFail (raise e s) := by
  unfold raise
  split <;> rfl

theorem serviceRead_withOpen (index : Byte) : serviceRead index (withOpen backoff logEn exitFail s) =
    withOpen backoff logEn exitFail (serviceRead index s) := by
  have hanswer : transmitAnswer (withOpen backoff logEn exitFail s) = transmitAnswer s := rfl
  rcases lt_or_ge index.toNat s.params.n with hlt | hge
  · rw [serviceRead_inRange hlt, serviceRead_inRange (s := withOpen backoff logEn exitFail s) hlt, hanswer]
    cases transmitAnswer s with
    | ok => rfl
    | err c => rfl
  · rw [serviceRead_outOfRange hge, serviceRead_outOfRange (s := withOpen backoff logEn exitFail s) hge]
    rfl

theorem serviceWrite_withOpen (index value : Byte) : serviceWrite index value (withOpen backoff logEn exitFail s) =
    withOpen backoff logEn exitFail (serviceWrite index value s) := by
  rcases lt_or_ge index.toNat s.params.n with hlt | hge
  · rw [serviceWrite_inRange value hlt, serviceWrite_inRange value (s := withOpen backoff logEn exitFail s) hlt]
    rfl
  · rw [serviceWrite_outOfRange value hge, serviceWrite_outOfRange value (s := withOpen backoff logEn exitFail s) hge]
    rfl

theorem startUp_withOpen :
    startUp (withOpen backoff logEn exitFail s) = withOpen backoff logEn exitFail (startUp s) := by
  cases ha : setEnabledAnswer s with
  | ok => rw [startUp_of_ok ha, startUp_of_ok (s := withOpen backoff logEn exitFail s) ha]; rfl
  | err c => rw [startUp_of_err ha, startUp_of_err (s := withOpen backoff logEn exitFail s) ha]; rfl

theorem close_withOpen : close (withOpen backoff logEn exitFail s) = withOpen backoff logEn exitFail (close s) := by
  cases ha : setEnabledAnswer s with
  | ok => rw [close_of_ok ha, close_of_ok (s := withOpen backoff logEn exitFail s) ha]; rfl
  | err c => rw [close_of_err ha, close_of_err (s := withOpen backoff logEn exitFail s) ha]; rfl

theorem effectOf_withOpen (i : Instr) : effectOf i (withOpen backoff logEn exitFail s) =
    withOpen backoff logEn exitFail (effectOf i s) := by
  cases i with
  | idle => rfl
  | rd index => exact serviceRead_withOpen backoff logEn exitFail s index
  | wr index value => exact serviceWrite_withOpen backoff logEn exitFail s index value
  | bad n => exact raise_withOpen backoff logEn exitFail s (.malformedFrame n)
  | start => exact startUp_withOpen backoff logEn exitFail s
  | stop => exact close_withOpen backoff logEn exitFail s

/-- The requirements of an event read N and the controller state alone. -/
theorem exec_withOpen (i : Instr) : exec i (withOpen backoff logEn exitFail s) =
    mapNext (withOpen backoff logEn exitFail) (exec i s) := by
  rw [exec_eq_whenIn]
  by_cases hl : s.params.legal = true
  · by_cases hc : s.ctl = requiredCtl i
    · rw [whenIn_of _ hl hc, whenIn_of (s := withOpen backoff logEn exitFail s) _ hl hc, effectOf_withOpen]
      rfl
    · rw [whenIn_elsewhere _ hl hc, whenIn_elsewhere (s := withOpen backoff logEn exitFail s) _ hl hc]
      rfl
  · rw [whenIn_illegal _ hl, whenIn_illegal (s := withOpen backoff logEn exitFail s) _ hl]
    rfl

theorem thenEndIteration_mapNext (o : Host.Outcome State Fault Refusal) :
    thenEndIteration (mapNext (withOpen backoff logEn exitFail) o) =
      mapNext (withOpen backoff logEn exitFail) (thenEndIteration o) := by
  cases o <;> rfl

theorem afterPoll_withOpen (a : PollAnswer) : afterPoll a (withOpen backoff logEn exitFail s) =
    mapNext (withOpen backoff logEn exitFail) (afterPoll a s) := by
  cases hst : a.st with
  | err c =>
    rw [afterPoll_failed _ hst, afterPoll_failed _ hst]
    rfl
  | ok =>
    rw [afterPoll_decoded _ hst (decode_frame a.buf), afterPoll_decoded _ hst (decode_frame a.buf),
      ← thenEndIteration_mapNext, ← exec_withOpen]
    rfl

/-- The step of the state with the other values, from each controller state. -/
theorem step_withOpen : step (withOpen backoff logEn exitFail s) =
    mapNext (withOpen backoff logEn exitFail) (step s) := by
  by_cases hl : s.params.legal = true
  · cases hc : s.ctl with
    | initializing =>
      rw [step_initializing hl hc, step_initializing (s := withOpen backoff logEn exitFail s) hl hc, exec_withOpen]
    | polling =>
      cases hs : shutdownLevel s with
      | true =>
        rw [step_shutdown hl hc hs, step_shutdown (s := withOpen backoff logEn exitFail s) hl hc hs]
        exact exec_withOpen backoff logEn exitFail (sampled s) .stop
      | false =>
        rw [step_polling hl hc hs, step_polling (s := withOpen backoff logEn exitFail s) hl hc hs]
        exact afterPoll_withOpen backoff logEn exitFail (polled (sampled s)) (pollAnswer s)
    | closing =>
      rw [step_closing hl hc, step_closing (s := withOpen backoff logEn exitFail s) hl hc]
      rfl
    | failed =>
      rw [step_failed hl hc, step_failed (s := withOpen backoff logEn exitFail s) hl hc]
      rfl
    | servicingRead | servicingWrite | idling | rejectingMalformed =>
      have hmid : betweenIterations s.ctl = false := by rw [hc]; rfl
      rw [step_midIteration hl hmid, step_midIteration (s := withOpen backoff logEn exitFail s) hl hmid]
      rfl
  · rw [step_illegal hl, step_illegal (s := withOpen backoff logEn exitFail s) hl]
    rfl

end

/-- Settles O45: the step commutes with putting the values in. -/
theorem openParametersAreNeverRead : Obligations.OpenParametersAreNeverRead := by
  intro s backoff logEn exitFail
  refine (step_withOpen backoff logEn exitFail s).trans ?_
  cases step s <;> rfl

end Sys2Proof.Machine
end

section
/-! Reset (10_state.md section 9), the exit status, and the invariant that every step from a reset on keeps (10_state.md R15,
R18, R19). -/

namespace Sys2Proof.Machine

open Sys2Proof

/-! ### Reset -/

/-- R11: below 255 the reset pattern does not wrap. -/
theorem toNat_resetByte {a : Nat} (h : a < 255) : (resetByte a).toNat = a + 1 := by
  rw [resetByte, BitVec.toNat_ofNat]
  omega

/-- Settles O41: field by field, and the table of the eight registers by evaluation. -/
theorem resetValues : Obligations.ResetValues := by
  refine ⟨fun p e => ⟨fun hl a ha => ?_, rfl, rfl, rfl, rfl, rfl, rfl⟩, rfl, rfl⟩
  obtain ⟨-, hmax⟩ := legal_iff.mp hl
  exact toNat_resetByte (by omega)

/-- Settles O42: a reset is made from the parameters and the environment. -/
theorem resetForgetsTheOldLife : Obligations.ResetForgetsTheOldLife :=
  fun _ => ⟨rfl, fun _ hp he => congrArg₂ State.resetIn hp he⟩

theorem exitFail_toInt_ne_zero (e : ExitFail) : e.toInt ≠ 0 := by
  unfold ExitFail.toInt
  split
  · exact Int.negSucc_ne_zero _
  · exact Int.ofNat_ne_zero.mpr (Nat.succ_ne_zero _)

theorem exists_exitFail_toInt_eq {z : Int} (h : z ≠ 0) : ∃ e : ExitFail, e.toInt = z := by
  match z with
  | .negSucc k => exact ⟨⟨true, k⟩, rfl⟩
  | .ofNat (k + 1) => exact ⟨⟨false, k⟩, rfl⟩
  | .ofNat 0 => exact absurd rfl h

/-- Settles O43: there is an exit status where `fatal` is set, and it is `EXIT_FAIL`. -/
theorem exitStatusIsNonZeroAndOnlyAfterFailure : Obligations.ExitStatusIsNonZeroAndOnlyAfterFailure := by
  refine ⟨fun s z h => ?_, fun s h => if_pos h, fun z => exists_exitFail_toInt_eq⟩
  obtain ⟨hfatal, hz⟩ := Option.ite_none_right_eq_some.mp h
  cases hz
  exact ⟨exitFail_toInt_ne_zero _, hfatal⟩

/-- Settles O48: clause by clause of the invariant. -/
theorem resetMeetsTheInvariant : Obligations.ResetMeetsTheInvariant :=
  fun _ _ hl => ⟨hl, Memory.wf_nil _, rfl, rfl, rfl, nofun, nofun⟩

/-! ### The invariant -/

theorem step_params {s t : State} (h : step s = .next t) : t.params = s.params := by
  obtain ⟨-, hcase⟩ := step_next_cases h
  cases hcase with
  | started =>
    obtain ⟨-, -, -, hp⟩ := startUp_keeps s
    exact hp
  | stayed => rfl
  | closed hc | pollFailed hc | idle hc | rd hc | wr hc | bad hc => exact (step_polling_keeps hc h).2

/-- The only store is a write frame's, in range (R81). -/
theorem serviceWrite_wf {n : Nat} {s : State} (index value : Byte) (hn : s.params.n = n) (h : s.x.wf n) :
    (serviceWrite index value s).x.wf n := by
  rw [serviceWrite_x]
  split
  · next hlt => exact Memory.wf_write h (hn ▸ hlt)
  · exact h

theorem step_wf {s t : State} (h : step s = .next t) (hwf : s.x.wf s.params.n) : t.x.wf s.params.n := by
  obtain ⟨-, hcase⟩ := step_next_cases h
  cases hcase with
  | started => rwa [(startUp_keeps s).1]
  | closed => rwa [(close_keeps (sampled s)).1]
  | rd _ _ index => rwa [endIteration_x, (serviceRead_keeps index (fetched s)).1]
  | wr _ _ index value => exact serviceWrite_wf index value rfl hwf
  | pollFailed | idle | bad | stayed => exact hwf

/-- After the startup step `fatal` is set exactly in `Failed`, where it was not set before (R132). -/
theorem startUp_fatal_iff {s : State} (h : s.fatal = false) : (startUp s).fatal = true ↔ (startUp s).ctl = .failed := by
  cases ha : setEnabledAnswer s with
  | ok => rw [startUp_of_ok ha]; simp [h]
  | err c => rw [startUp_of_err ha]; simp [errorCtl]

theorem startUp_betweenIterations (s : State) : betweenIterations (startUp s).ctl = true := by
  cases ha : setEnabledAnswer s with
  | ok => rw [startUp_of_ok ha]; rfl
  | err c => rw [startUp_of_err ha]; rfl

/-- An iteration ends between iterations, and not in `Failed`. -/
theorem step_polling_ctl {s t : State} (hc : s.ctl = .polling) (h : step s = .next t) :
    betweenIterations t.ctl = true ∧ t.ctl ≠ .failed := by
  obtain ⟨hl, -⟩ := step_next_cases h
  obtain ⟨u, hu, hctl⟩ := step_polling_finishes hl hc
  cases h.symm.trans hu
  rw [hctl]
  cases shutdownLevel s with
  | true => exact ⟨rfl, nofun⟩
  | false => exact ⟨rfl, nofun⟩

/-- The startup step keeps the invariant, whatever the enable call is answered. -/
theorem inv_startUp {s : State} (h : Inv s) (hc : s.ctl = .initializing) : Inv (startUp s) := by
  obtain ⟨hx, hrx, htx, hp⟩ := startUp_keeps s
  have hclear : s.fatal = false := by simpa [hc] using h.fatal
  exact ⟨hp ▸ h.legal, by rw [hx, hp]; exact h.bank, startUp_betweenIterations s, hrx.trans h.rx, htx.trans h.tx,
    startUp_fatal_iff hclear⟩

/-- An iteration keeps the invariant: it ends with empty buffers outside `Failed`, with `fatal` as it was. -/
theorem inv_step_polling {s t : State} (h : Inv s) (hc : s.ctl = .polling) (hstep : step s = .next t) : Inv t := by
  obtain ⟨hrx, htx⟩ := step_polling_buffers hc hstep
  obtain ⟨hfatal, hp⟩ := step_polling_keeps hc hstep
  have hclear : s.fatal = false := by simpa [hc] using h.fatal
  have hbank : t.x.wf t.params.n := hp ▸ step_wf hstep h.bank
  obtain ⟨hctl, hne⟩ := step_polling_ctl hc hstep
  exact ⟨hp ▸ h.legal, hbank, hctl, hrx, htx, by simp [hfatal, hclear, hne]⟩

/-- Settles O49: by the controller state the step starts from. -/
theorem stepKeepsTheInvariant : Obligations.StepKeepsTheInvariant := by
  intro s t h hstep
  cases hc : s.ctl with
  | initializing =>
    rw [step_initializing h.legal hc] at hstep
    obtain ⟨-, -, rfl⟩ := exec_next.mp hstep
    exact inv_startUp h hc
  | polling => exact inv_step_polling h hc hstep
  | closing =>
    cases hstep.symm.trans (step_closing h.legal hc)
    exact h
  | failed => cases hstep.symm.trans (step_failed h.legal hc)
  | servicingRead | servicingWrite | idling | rejectingMalformed =>
    have hbetween := h.ctl
    rw [hc] at hbetween
    cases hbetween

end Sys2Proof.Machine
end

section
/-! The trace as the record of the bank (20_memory.md R49): each step leaves the bank that its events tell of, and sends what
the trace before tells. -/

namespace Sys2Proof.Machine

open Sys2Proof

/-! ### The bank as the trace tells it -/

theorem bankAfter_append (n : Nat) (trace es : List Event) :
    bankAfter n (trace ++ es) = es.foldl (bankStep n) (bankAfter n trace) :=
  List.foldl_append

/-- The events of a port call that is no poll leave the told bank. -/
theorem foldl_bankStep_enableEvents (n : Nat) (x : Nat → Byte) (b : Bool) (address : Nat) (st : Status) :
    (enableEvents b address st).foldl (bankStep n) x = x := by
  cases st <;> rfl

/-- A row of R109 tells of exactly the bank it leaves. -/
theorem foldl_bankStep_iterationEvents (n : Nat) (x : Nat → Byte) (a : PollAnswer) (transmit : Status) :
    (iterationEvents n x a transmit).foldl (bankStep n) x = iterationBank n x a := by
  obtain ⟨st, buf⟩ := a
  match st, buf with
  | .err _, _ | .ok, [] | .ok, _ :: _ :: _ :: _ => rfl
  | .ok, [index] =>
    unfold iterationEvents
    dsimp only
    split
    · cases transmit <;> rfl
    · rfl
  | .ok, [index, value] =>
    unfold iterationEvents
    dsimp only
    split <;> rfl

/-- The bank a step leaves is the bank before it with the step's events told (R49 (a)). -/
theorem step_read {s t : State} (h : step s = .next t) :
    t.x.read = (stepEvents s).foldl (bankStep s.params.n) s.x.read := by
  obtain ⟨-, hcase⟩ := step_next_cases h
  cases hcase with
  | started hc => rw [(startUp_keeps s).1, stepEvents_initializing hc, foldl_bankStep_enableEvents]
  | closed hc hs => rw [(close_keeps (sampled s)).1, stepEvents_polling hc, if_pos hs, foldl_bankStep_enableEvents]; rfl
  | stayed hc => rw [stepEvents_closing hc]; rfl
  | pollFailed hc hs | idle hc hs | rd hc hs | wr hc hs | bad hc hs =>
    rw [step_polling_read hc hs h, stepEvents_polling hc, hs]
    exact (foldl_bankStep_iterationEvents _ _ _ _).symm

/-- The effect of an event on a register depends on that register alone. -/
theorem bankStep_congr {n a : Nat} {x y : Nat → Byte} (h : x a = y a) (e : Event) :
    bankStep n x e a = bankStep n y e a := by
  unfold bankStep
  split
  · split
    · unfold bankWith
      rw [h]
    · exact h
  · exact h

theorem foldl_bankStep_congr {n a : Nat} {x y : Nat → Byte} (h : x a = y a) (es : List Event) :
    es.foldl (bankStep n) x a = es.foldl (bankStep n) y a := by
  induction es generalizing x y with
  | nil => exact h
  | cons e es ih => exact ih (bankStep_congr h e)

/-! ### The responses as the trace tells them -/

theorem transmit_not_mem_enableEvents {b : Bool} {address : Nat} {st st' : Status} {bs : List Byte} :
    .callTransmit bs st' ∉ enableEvents b address st := by
  cases st <;> simp [enableEvents]

section

variable {n : Nat} {x : Nat → Byte} {a : PollAnswer} {transmit st : Status} {pre post : List Event} {bs : List Byte}

/-- An event found in a row of three that is neither the first nor the last is the middle one. -/
theorem eq_of_three_events {first middle last e : Event} (h : [first, middle, last] = pre ++ e :: post)
    (hfirst : first ≠ e) (hlast : last ≠ e) : pre = [first] ∧ middle = e := by
  match pre, h with
  | [], h => exact absurd (List.cons.inj h).1 hfirst
  | [_], h => cases h; exact ⟨rfl, rfl⟩
  | [_, _], h => cases h; exact absurd rfl hlast
  | _ :: _ :: _ :: _, h => simp at h

/-- A row of R109 that transmits polled an in-range read frame just before, and sends that register's byte (R68). -/
theorem transmit_of_iterationEvents (h : iterationEvents n x a transmit = pre ++ .callTransmit bs st :: post) :
    ∃ index, pre = [.callPoll .ok 1 [index]] ∧ index.toNat < n ∧ bs = [x index.toNat] := by
  obtain ⟨ast, buf⟩ := a
  match ast, buf, h with
  | .err _, _, h | .ok, [], h | .ok, _ :: _ :: _ :: _, h => simp [iterationEvents, List.cons_eq_append_iff] at h
  | .ok, [index, value], h =>
    by_cases hlt : index.toNat < n <;> simp [iterationEvents, hlt, List.cons_eq_append_iff] at h
  | .ok, [index], h =>
    by_cases hlt : index.toNat < n
    · obtain ⟨hpre, hsent⟩ := eq_of_three_events ((if_pos hlt).symm.trans h) nofun (by cases transmit <;> nofun)
      cases hsent
      exact ⟨index, hpre, hlt, rfl⟩
    · simp [iterationEvents, hlt, List.cons_eq_append_iff] at h

/-- Only an iteration with a poll transmits. -/
theorem transmit_of_stepEvents {s : State} (h : stepEvents s = pre ++ .callTransmit bs st :: post) :
    ∃ index, pre = [.callPoll .ok 1 [index]] ∧ index.toNat < s.params.n ∧ bs = [s.x.read index.toNat] := by
  obtain hnone | ⟨b, hcall⟩ | hrow := stepEvents_cases s
  · simp [hnone] at h
  · have hmem : .callTransmit bs st ∈ stepEvents s := by simp [h]
    rw [hcall] at hmem
    exact absurd hmem transmit_not_mem_enableEvents
  · exact transmit_of_iterationEvents (hrow.symm.trans h)

/-- A trace grown by events keeps telling its responses where each new response is told by the trace before it. -/
theorem responsesTold_append {trace es : List Event} (h : responsesTold n trace)
    (hnew : ∀ pre bs st post, es = pre ++ .callTransmit bs st :: post →
      ∃ index, pre = [.callPoll .ok 1 [index]] ∧ index.toNat < n ∧ bs = [bankAfter n trace index.toNat]) :
    responsesTold n (trace ++ es) := by
  intro pre bs st post hsplit
  obtain ⟨mid, rfl, hes⟩ | ⟨mid, htrace, hpost⟩ := List.append_eq_append_iff.mp hsplit
  · obtain ⟨index, rfl, hlt, hbs⟩ := hnew mid bs st post hes
    exact ⟨trace, index, rfl, hlt, hbs⟩
  · cases mid with
    | nil =>
      obtain ⟨index, hpoll, -⟩ := hnew [] bs st post hpost.symm
      cases hpoll
    | cons e mid =>
      cases hpost
      exact h pre bs st mid htrace

end

/-- Settles O50: nothing was written and nothing was sent. -/
theorem resetBankIsWhatTheTraceTells : Obligations.ResetBankIsWhatTheTraceTells :=
  fun _ _ => ⟨fun _ _ => rfl, fun _ _ _ _ h => absurd h (by simp [State.resetIn])⟩

/-- Settles O51: the bank moves as the step's events tell, and a step's response sends a register the trace tells of. -/
theorem bankAndResponsesFollowThePolls : Obligations.BankAndResponsesFollowThePolls := by
  intro s t ⟨hbank, hresponses⟩ h
  have hp := step_params h
  have htrace := step_trace h
  refine ⟨fun a ha => ?_, ?_⟩
  · rw [hp] at ha ⊢
    rw [step_read h, htrace, bankAfter_append]
    exact foldl_bankStep_congr (hbank a ha) _
  · rw [hp, htrace]
    refine responsesTold_append hresponses fun pre bs st post hnew => ?_
    obtain ⟨index, hpre, hlt, hbs⟩ := transmit_of_stepEvents hnew
    exact ⟨index, hpre, hlt, by rw [hbs, hbank _ hlt]⟩

/-! ### A register no write frame names -/

/-- A run's bank is told by the events it appends. -/
theorem run_read {k : Nat} {s t : State} (h : Host.Core.run core k s = .next t) :
    ∃ es, t.trace = s.trace ++ es ∧ t.x.read = es.foldl (bankStep s.params.n) s.x.read := by
  induction k generalizing s with
  | zero =>
    cases (run_zero s).symm.trans h
    exact ⟨[], (List.append_nil _).symm, rfl⟩
  | succ k ih =>
    obtain ⟨u, hstep, hrun⟩ := run_succ_next h
    obtain ⟨es, htrace, hread⟩ := ih hrun
    refine ⟨stepEvents s ++ es, ?_, ?_⟩
    · rw [htrace, step_trace hstep, List.append_assoc]
    · rw [hread, step_params hstep, step_read hstep, List.foldl_append]

theorem bankStep_of_ne_write {n : Nat} {x : Nat → Byte} {index : Byte} {e : Event}
    (h : ∀ count value, e ≠ .callPoll .ok count [index, value]) : bankStep n x e index.toNat = x index.toNat := by
  unfold bankStep
  split
  · next count other value =>
    split
    · refine if_neg fun heq => ?_
      cases BitVec.eq_of_toNat_eq heq
      exact h count value rfl
    · rfl
  · rfl

theorem foldl_bankStep_of_no_write {n : Nat} {x : Nat → Byte} {index : Byte} {es : List Event}
    (h : ∀ count value, .callPoll .ok count [index, value] ∉ es) :
    es.foldl (bankStep n) x index.toNat = x index.toNat := by
  induction es generalizing x with
  | nil => rfl
  | cons e es ih =>
    have hrest := ih (x := bankStep n x e) fun count value hmem => h count value (List.mem_cons_of_mem e hmem)
    exact hrest.trans (bankStep_of_ne_write fun count value he => h count value (he ▸ List.mem_cons_self))

/-- Settles O47: the events the run appends tell of no write to the register. -/
theorem registerKeepsItsValueWithoutAWriteFrame : Obligations.RegisterKeepsItsValueWithoutAWriteFrame := by
  intro k s t es index h htrace hquiet
  obtain ⟨es', htrace', hread⟩ := run_read h
  cases List.append_cancel_left (htrace.symm.trans htrace')
  rw [hread]
  exact foldl_bankStep_of_no_write hquiet

end Sys2Proof.Machine
end
